-- ==== Sys2Proof/Word.lean ====
section
/-! DEFINITION. The words of the block: one byte, the 16-bit frame word of the opcode table, and a packet. -/

namespace Sys2Proof

/-- One byte: the unit of frames, packets, the queue, `cur_cyl`, `tgt_cyl` and `rev_target` (R9, R62). -/
abbrev Byte := BitVec 8

/-- The frame word `F = byte1 ++ byte0` of the opcode table (R82). -/
abbrev FrameWord := BitVec 16

/-- A transport packet, its first byte on the channel first (R62, R80). -/
abbrev Packet := List Byte

end Sys2Proof
end

