-- ==== Sys2Proof/Syntax.lean ====
section
/-! DEFINITION. The block's operations as syntax: the nine command frames, the response bytes, and the internal events. -/

namespace Sys2Proof

/-- The command frames, one constructor per row of `spec/opcode_table.json` (R83). An operand is the frame's byte 1, any of its
256 values (R81); a frame whose byte 1 is ignored has none. -/
inductive Instr where
  | halt
  | selectDrive (param : Byte)
  | cylinder (t : Byte)
  | head (param : Byte)
  | checkDisk
  | motor (v : Byte)
  | read
  | readMulti (n : Byte)
  | handshake
deriving DecidableEq, Repr, Inhabited

/-- The response bytes by name (R86). `invalidCmd` and `diskEjected` are named and never pushed (R87). -/
inductive Response where
  | invalidCmd
  | done
  | overflow
  | indexOn
  | indexOff
  | noDisk
  | diskLoaded
  | diskEjected
  | indexTimeout
deriving DecidableEq, Repr

/-- What can happen next: one atomic step of one agent (R14, R20). No frame selects an event (R91).

The steps of TIMER, INDEX and MAIN are the spec's internal events. The others are the moves of HOST (R43, R213) and of
SENSORS (R44); R92 writes them SEND, ACCEPT and SET. -/
inductive Event where
  /-- TIMER takes TICK (R100). -/
  | tick
  /-- INDEX takes IDX_FALL (R162). -/
  | idxFall
  /-- INDEX takes IDX_RISE (R162). -/
  | idxRise
  /-- MAIN takes the phase step that `ml_phase` names (R200). -/
  | main
  /-- HOST appends one packet to `rx_fifo` (R43). -/
  | hostSend (pkt : Packet)
  /-- HOST begins or ceases to accept outgoing packets (R43, R202). -/
  | hostAccept (on : Bool)
  /-- SENSORS sets `in.trk0` (R44). -/
  | setTrk0 (v : Bool)
  /-- SENSORS sets `in.disk_present` (R44). -/
  | setDisk (v : Bool)
  /-- SENSORS sets `in.wpt` (R44). -/
  | setWpt (v : Bool)
deriving DecidableEq, Repr, Inhabited

end Sys2Proof
end

