-- ==== Sys2Proof/Decode.lean ====
section
/-! DEFINITION. The decoder from packets to command frames (R80 to R85, R94), the encoder back, and the output encodings (R86, R89). -/

namespace Sys2Proof

/-- The opcodes of R83 by name. -/
inductive Opcode where
  | halt | selectDrive | cylinder | head | checkDisk | motor | read | readMulti | handshake
deriving DecidableEq, Repr

/-- Why a packet holds no command. Each is consumed with no effect (R209, R210). -/
inductive DecodeError where
  /-- A packet of length 0 carries no frame (R80). -/
  | emptyPacket
  /-- Byte 0 selects no row of R83 (R85). -/
  | unknownOpcode (op : Byte)
  /-- The opcode needs byte 1 and the packet has one byte (R94). -/
  | missingParameter (op : Byte)
deriving DecidableEq, Repr

/-- The opcode column of R83. -/
def Opcode.code : Opcode → Byte
  | .halt => 0x00
  | .selectDrive => 0x01
  | .cylinder => 0x02
  | .head => 0x03
  | .checkDisk => 0x04
  | .motor => 0x05
  | .read => 0x06
  | .readMulti => 0x07
  | .handshake => 0x69

/-- The column "needs byte 1" of R83. -/
def Opcode.needsByte1 : Opcode → Bool
  | .selectDrive | .cylinder | .head | .motor | .readMulti => true
  | .halt | .checkDisk | .read | .handshake => false

/-- The row that byte 0 selects: an exact match, at most one (R84). -/
def Opcode.ofByte (b : Byte) : Option Opcode :=
  if b = 0x00 then some .halt
  else if b = 0x01 then some .selectDrive
  else if b = 0x02 then some .cylinder
  else if b = 0x03 then some .head
  else if b = 0x04 then some .checkDisk
  else if b = 0x05 then some .motor
  else if b = 0x06 then some .read
  else if b = 0x07 then some .readMulti
  else if b = 0x69 then some .handshake
  else none

/-- The frame of an opcode with byte 1 = `p`; a frame that ignores byte 1 does not hold it (R83). -/
def Opcode.frame (p : Byte) : Opcode → Instr
  | .halt => .halt
  | .selectDrive => .selectDrive p
  | .cylinder => .cylinder p
  | .head => .head p
  | .checkDisk => .checkDisk
  | .motor => .motor p
  | .read => .read
  | .readMulti => .readMulti p
  | .handshake => .handshake

/-- The frame a packet carries (R80, R84, R205): byte 0 selects the row; byte 1 is read only by a row that needs it; bytes 2 and
beyond are ignored. Total on any bytes. -/
def decode (pkt : Packet) : Except DecodeError Instr :=
  match pkt with
  | [] => .error .emptyPacket
  | b0 :: rest =>
    match Opcode.ofByte b0 with
    | none => .error (.unknownOpcode b0)
    | some o =>
      if o.needsByte1 then
        match rest with
        | [] => .error (.missingParameter b0)
        | b1 :: _ => .ok (o.frame b1)
      else .ok (o.frame 0)

/-- The opcode of a frame (R83). -/
def Instr.opcode : Instr → Opcode
  | .halt => .halt
  | .selectDrive _ => .selectDrive
  | .cylinder _ => .cylinder
  | .head _ => .head
  | .checkDisk => .checkDisk
  | .motor _ => .motor
  | .read => .read
  | .readMulti _ => .readMulti
  | .handshake => .handshake

/-- The parameter bytes of a frame: one where R83 says byte 1 is needed, none elsewhere (R90). -/
def Instr.params : Instr → List Byte
  | .selectDrive p => [p]
  | .cylinder t => [t]
  | .head p => [p]
  | .motor v => [v]
  | .readMulti n => [n]
  | .halt | .checkDisk | .read | .handshake => []

/-- The shortest packet that carries a frame (R80, R90). -/
def encode (i : Instr) : Packet := i.opcode.code :: i.params

/-- The two bytes of a frame word whose lowest `nbits` bits are those of `w` and whose others are 0: byte 0 is `F[7:0]`, byte 1 is
`F[15:8]` (R82). -/
def packetOfWord (nbits w : Nat) : Packet :=
  let f := w % 2 ^ nbits
  [BitVec.ofNat 8 f, BitVec.ofNat 8 (f / 256)]

/-- The instruction the decoder reads from the frame word `w` of the opcode table. -/
def decodeTableWord (nbits w : Nat) : Option Instr :=
  match decode (packetOfWord nbits w) with
  | .ok i => some i
  | .error _ => none

/-- The frame word of a packet, an absent byte written 0 (R82: "that byte may also be absent from the packet"). -/
def frameWord (pkt : Packet) : FrameWord :=
  pkt.getD 1 0 ++ pkt.getD 0 0

/-- The codes of the response bytes (R86). -/
def Response.code : Response → Byte
  | .invalidCmd => 0xC0
  | .done => 0xC1
  | .overflow => 0xC2
  | .indexOn => 0xC3
  | .indexOff => 0xC4
  | .noDisk => 0xC5
  | .diskLoaded => 0xC6
  | .diskEjected => 0xC7
  | .indexTimeout => 0xC8

/-- The handshake packet, "FLOPPYTHING" in ASCII, first byte first (R89). -/
def handshakePacket : Packet :=
  [0x46, 0x4C, 0x4F, 0x50, 0x50, 0x59, 0x54, 0x48, 0x49, 0x4E, 0x47]

end Sys2Proof
end

