-- ==== Sys2Proof/Config.lean ====
section
/-! DEFINITION. The parameters of R8: the fixed ones as constants, the open ones as the structure `Params`; and the free value. -/

namespace Sys2Proof

/-- `Q_CAP`: event queue capacity in bytes (R8). -/
def Config.qCap : Nat := 128

/-- `Q_BLOCK`: drain block size in bytes (R8). -/
def Config.qBlock : Nat := 64

/-- `CYL_MAX`: highest legal cylinder (R8). -/
def Config.cylMax : Byte := 79

/-- `CYL_UNKNOWN`: the reset sentinel of `cur_cyl` (R8, R28). -/
def Config.cylUnknown : Byte := 255

/-- The longest packet either direction of the transport carries (R80, R213). -/
def Config.packetMax : Nat := 64

/-- `TICK_PERIOD` in microseconds: 0.1 ms in the reference. Timing only; no rule reads it (R8, R101). -/
def Config.tickPeriodMicros : Nat := 100

/-- `SYNC_STAGES`: OPEN, timing only; no rule reads it (R8, R163). -/
opaque Config.syncStages : Nat

/-- `STEP_HIGH_MIN`: OPEN, electrical, timing only; no rule reads it (R8, R134). -/
opaque Config.stepHighMin : Nat

/-- DESIGN CHOICE (log 2), safe. The event that comes next when the state's agenda names none: any agent may move (R240), so it is
a free value, applied to the count of the draws made so far. -/
opaque Config.freeEvent : Nat → Event

/-- The parameters of R8 that are arguments of the model: the OPEN ones that a rule reads, and the delays (D7). -/
structure Params where
  /-- `TICK_W`, the width of the tick counter (D2). -/
  tickW : Nat
  /-- `LATE_BOUND`, the lateness bound of the due test, in ticks (D3). -/
  lateBound : Nat
  /-- `REV_W`, the width of the revolution counter (D20). -/
  revW : Nat
  /-- `STEP_FIRST_DELAY`, in ticks. -/
  stepFirstDelay : Nat
  /-- `STEP_PERIOD`, in ticks. -/
  stepPeriod : Nat
  /-- `SETTLE_DELAY`, in ticks. -/
  settleDelay : Nat
  /-- `SPINUP_DELAY`, in ticks. -/
  spinupDelay : Nat
  /-- `READ_TIMEOUT`, in ticks. -/
  readTimeout : Nat
deriving DecidableEq, Repr

/-- The values and defaults of R8's table. -/
def Params.default : Params where
  tickW := 32
  lateBound := 2 ^ 31
  revW := 16
  stepFirstDelay := 60
  stepPeriod := 60
  settleDelay := 200
  spinupDelay := 10000
  readTimeout := 10000

/-- The delays that some rule passes to `arm` (R106). -/
def Params.delays (p : Params) : List Nat :=
  [p.stepFirstDelay, p.stepPeriod, p.settleDelay, p.spinupDelay, p.readTimeout]

end Sys2Proof
end

