-- ==== Sys2Proof/Machine/State.lean ====
section
/-! DEFINITION. The state of the block (10_state.md), the reasons a step can stop, and the state after reset. -/

namespace Sys2Proof.Machine

/-- The operation states the source names (R23). Codes 6 and 7 name no state and have no constructor (log 7). -/
inductive OpState where
  | idle
  | stepPulseLow
  /-- Named by the source, never entered (R129). -/
  | stepPulseHigh
  | stepSettle
  | spinningUp
  | reading
deriving DecidableEq, Repr

/-- The drive identity (R25). Code 3 is never held and has no constructor (log 7). -/
inductive DriveSel where
  | none
  | drive1
  | drive2
deriving DecidableEq, Repr

/-- The direction line: outward is towards cylinder 0 (R18, R30). -/
inductive Dir where
  | outward
  | inward
deriving DecidableEq, Repr

/-- The trigger mode of the index interrupt (R33). -/
inductive IdxMode where
  | falling
  | both
deriving DecidableEq, Repr

/-- The position of the main-loop sequencer (R42). -/
inductive MlPhase where
  | drain
  | rx
  | poll
deriving DecidableEq, Repr

/-- One `pulse(dir)` event, with the tick of the step that completed it (R46 (c), R125; the tick is an annotation, log 12). -/
structure Pulse where
  dir : Dir
  tick : Nat
deriving DecidableEq, Repr

/-- The queue's storage as (index, byte) pairs in one canonical form (see `Memory.wf` in Machine/Ops.lean). -/
abbrev Memory := List Host.Cell

/-- The block raises no exception: no frame, event or parameter faults (R230). So there is no reason to fault. -/
inductive Fault where
deriving DecidableEq, Repr

/-- Why a step has no meaning. -/
inductive Refusal where
  /-- Raised by an arm of `exec` whose instruction has no meaning yet; no arm raises it. Safe. -/
  | notModelled (mnemonic : String)
  /-- Raised by `step` in a state whose parameters break R8 or R106: "A model refuses such a configuration" (R271). Safe. -/
  | badConfiguration
  /-- Raised by `step` in a state that holds STEP_PULSE_HIGH: "A model given a start state holding one of them refuses the state"
  (R129). Safe. -/
  | stepPulseHighState
deriving DecidableEq, Repr

/-- The state of the block. Flags are `Bool`, `true` for 1. `tick`, `sched` and `rev_count` have a width that is a parameter and are
held as the number they stand for, below 2 to that width (log 13). -/
structure State where
  /-- The parameters of R8; no step changes them (log 1). -/
  params : Params
  /-- `tick`, TICK_W bits (R21). -/
  tick : Nat
  /-- `sched`, TICK_W bits (R22). -/
  sched : Nat
  /-- `armed` (R22). -/
  armed : Bool
  /-- `op_state` (R23). -/
  opState : OpState
  /-- `drive_sel` (R25). -/
  driveSel : DriveSel
  /-- `head` (R26). -/
  head : Bool
  /-- `motor_on[1]` (R27). -/
  motorOn1 : Bool
  /-- `motor_on[2]` (R27). -/
  motorOn2 : Bool
  /-- `cur_cyl` (R28). -/
  curCyl : Byte
  /-- `tgt_cyl` (R29). -/
  tgtCyl : Byte
  /-- `dir` (R30). -/
  dir : Dir
  /-- `step_n`: `true` is high, inactive (R31). -/
  stepN : Bool
  /-- `idx_en` (R32). -/
  idxEn : Bool
  /-- `idx_mode` (R33). -/
  idxMode : IdxMode
  /-- `idx_latch`: `true` is ON (R34). -/
  idxLatch : Bool
  /-- `rev_count`, REV_W bits (R35). -/
  revCount : Nat
  /-- `rev_target` (R36). -/
  revTarget : Byte
  /-- `idx_line`: `true` is high (R37). -/
  idxLine : Bool
  /-- `qbuf[0..127]` (R38). -/
  qbuf : Memory
  /-- `q_wr`; its 7 bits wrap at `Q_CAP` (R39). -/
  qWr : BitVec 7
  /-- `q_pend` (R40). -/
  qPend : BitVec 8
  /-- `q_ovf` (R41). -/
  qOvf : Bool
  /-- `ml_phase` (R42). -/
  mlPhase : MlPhase
  /-- `rx_fifo`, its head first (R43). -/
  rxFifo : List Packet
  /-- `tx_accept`: the host accepts an outgoing packet now (R43). -/
  txAccept : Bool
  /-- `in.trk0` (R44). -/
  trk0 : Bool
  /-- `in.disk_present` (R44). -/
  diskPresent : Bool
  /-- `in.wpt`; the block never reads it (R44). -/
  wpt : Bool
  /-- The packets handed to the host, oldest first (R46 (a)). -/
  txLog : List Packet
  /-- The completed step pulses, oldest first (R46 (c)). -/
  pulses : List Pulse
  /-- The model's own: the events that come next, in order (log 2). -/
  agenda : List Event
  /-- The model's own: how many events the free value `Config.freeEvent` has given (log 2). -/
  draws : Nat
deriving DecidableEq, Repr

/-- The state after reset (R52, R260), with the values R52 leaves open and the levels of the inputs as arguments: `idx_line`,
`qbuf`, `tx_accept` and the sensor inputs are draws. -/
def State.resetWith (p : Params) (idxLine : Bool) (qbuf : Memory) (txAccept trk0 diskPresent wpt : Bool) : State where
  params := p
  tick := 0
  sched := 0
  armed := false
  opState := .idle
  driveSel := .none
  head := false
  motorOn1 := false
  motorOn2 := false
  curCyl := Config.cylUnknown
  tgtCyl := 0
  dir := .outward
  stepN := true
  idxEn := false
  idxMode := .falling
  idxLatch := false
  revCount := 0
  revTarget := 0
  idxLine := idxLine
  qbuf := qbuf
  qWr := 0
  qPend := 0
  qOvf := false
  mlPhase := .drain
  rxFifo := []
  txAccept := txAccept
  trk0 := trk0
  diskPresent := diskPresent
  wpt := wpt
  txLog := []
  pulses := []
  agenda := []
  draws := 0

/-- The machine right after reset, with the default parameters of R8. DESIGN CHOICE (log 4, log 5), unsafe: where R52 says "any" it
takes the start state of 95_test_vectors.md (index line high, sensors 0, the host accepting) and lists no byte of `qbuf`. -/
def State.reset : State := State.resetWith Params.default true [] true false false false

end Sys2Proof.Machine
end

