-- ==== Sys2Proof/Machine/Flags.lean ====
section
/-! DEFINITION. The tests that steps make: the due test, the wake condition, the queue tests, the edge and session tests, the
configuration test. The block has no condition codes (R49). -/

namespace Sys2Proof.Machine

/-- `(a - b) mod 2^w`, the unsigned modular difference of two ticks (R11, R103). -/
def tickDiff (w a b : Nat) : Nat := (a + (2 ^ w - b % 2 ^ w)) % 2 ^ w

/-- `due()`: the wraparound-safe due test (R103). It does not read `armed`. -/
def State.due (s : State) : Bool := tickDiff s.params.tickW s.tick s.sched < s.params.lateBound

/-- The wake condition of `poll()`: not IDLE, armed, and due (R124). -/
def State.wakes (s : State) : Bool := s.opState != .idle && s.armed && s.due

/-- The queue is full: `q_pend == Q_CAP` (R182). -/
def State.queueFull (s : State) : Bool := s.qPend.toNat == Config.qCap

/-- A block is sent only when `q_pend > Q_BLOCK` (R186). -/
def State.blockPending (s : State) : Bool := s.qPend.toNat > Config.qBlock

/-- The index of the block the writer is not in (R188). -/
def State.drainBase (s : State) : Nat := if s.qWr.toNat ≥ Config.qBlock then 0 else Config.qBlock

/-- A falling edge qualifies when the index interrupt is enabled (R164). -/
def State.fallQualifies (s : State) : Bool := s.idxEn

/-- A rising edge qualifies when the index interrupt is enabled for both edges (R164). -/
def State.riseQualifies (s : State) : Bool := s.idxEn && s.idxMode == .both

/-- The session's count has exceeded its target, unsigned (R165, R167). -/
def State.revsExceeded (s : State) : Bool := s.revCount > s.revTarget.toNat

/-- The constraints on the parameters: on the tick width (D2), on the lateness bound (R8), on each delay (R106), and on the queue
(R8). -/
def Params.valid (p : Params) : Bool :=
  decide (2 ≤ p.tickW) && decide (1 ≤ p.lateBound) && decide (p.lateBound ≤ 2 ^ (p.tickW - 1))
    && p.delays.all (fun d => decide (1 ≤ d) && decide (d ≤ 2 ^ p.tickW - p.lateBound))
    && decide (Config.qCap = 2 * Config.qBlock)

/-- Whether a model refuses to run from this state, and why (R129, R271). -/
def State.refusal (s : State) : Option Refusal :=
  if !(Params.valid s.params) then some .badConfiguration
  else if s.opState = .stepPulseHigh then some .stepPulseHighState
  else none

end Sys2Proof.Machine
end

