-- ==== Sys2Proof/Machine/Operands.lean ====
section
/-! DEFINITION. The operand forms of the frames, and the numeric codes of the state's named values. -/

namespace Sys2Proof.Machine

/-- The codes of `op_state` (R23). -/
def OpState.code : OpState → BitVec 3
  | .idle => 0
  | .stepPulseLow => 1
  | .stepPulseHigh => 2
  | .stepSettle => 3
  | .spinningUp => 4
  | .reading => 5

/-- The state a code names; 6 and 7 name none (R23). -/
def OpState.ofCode (c : BitVec 3) : Option OpState :=
  if c = 0 then some .idle
  else if c = 1 then some .stepPulseLow
  else if c = 2 then some .stepPulseHigh
  else if c = 3 then some .stepSettle
  else if c = 4 then some .spinningUp
  else if c = 5 then some .reading
  else none

/-- The codes of `drive_sel` (R25). -/
def DriveSel.code : DriveSel → BitVec 2
  | .none => 0
  | .drive1 => 1
  | .drive2 => 2

/-- The drive a code names; 3 names none (R25). -/
def DriveSel.ofCode (c : BitVec 2) : Option DriveSel :=
  if c = 0 then some .none
  else if c = 1 then some .drive1
  else if c = 2 then some .drive2
  else Option.none

/-- The codes of `dir` (R30). -/
def Dir.code : Dir → BitVec 1
  | .outward => 0
  | .inward => 1

/-- The codes of `idx_mode` (R33). -/
def IdxMode.code : IdxMode → BitVec 1
  | .falling => 0
  | .both => 1

/-- SELECT_DRIVE's operand: `param[1:0]` names the drive; `none` above 2 (R120). -/
def driveOperand (param : Byte) : Option DriveSel :=
  if param > 2 then Option.none else DriveSel.ofCode (param.extractLsb' 0 2)

/-- HEAD's operand: `param[0]` is the side; `none` above 1 (R121). -/
def sideOperand (param : Byte) : Option Bool :=
  if param > 1 then none else some (param.getLsbD 0)

/-- CYLINDER's operand: the target itself; `none` above `CYL_MAX` (R122). -/
def cylinderOperand (t : Byte) : Option Byte :=
  if t > Config.cylMax then none else some t

/-- MOTOR's operand: 0 is off, every other value is on (R123). -/
def motorOperand (v : Byte) : Bool := v != 0

end Sys2Proof.Machine
end

