-- ==== Sys2Proof/Machine/Ops.lean ====
section
/-! DEFINITION. The named operations over the queue storage and the registers that the steps share. The block takes no exception and
returns from none (R230, R239), so none of them is an exception entry. -/

namespace Sys2Proof.Machine

/-- DESIGN CHOICE (log 5), unsafe: what an index of `qbuf` that is not listed reads as. R52 leaves the reset contents open. -/
def Memory.unlisted : Byte := 0

/-- Byte `a` of the queue storage. -/
def Memory.read (m : Memory) (a : Nat) : Byte :=
  match m with
  | [] => Memory.unlisted
  | (k, b) :: rest => if k = a then b else Memory.read rest a

/-- `MemWrite(a, 1, v)` (R12), keeping the canonical form. -/
def Memory.write (m : Memory) (a : Nat) (v : Byte) : Memory :=
  match m with
  | [] => if v = Memory.unlisted then [] else [(a, v)]
  | (k, b) :: rest =>
    if a < k then (if v = Memory.unlisted then (k, b) :: rest else (a, v) :: (k, b) :: rest)
    else if a = k then (if v = Memory.unlisted then rest else (a, v) :: rest)
    else (k, b) :: Memory.write rest a v

/-- `MemRead(a, n)`: the `n` bytes from index `a`, in increasing index order (R12). -/
def Memory.readBlock (m : Memory) (a n : Nat) : Packet :=
  (List.range n).map fun i => Memory.read m (a + i)

/-- Every listed index is at least `lo` and below `Q_CAP`, the indices rise strictly, and no listed byte is the unlisted one. -/
def Memory.wfFrom (m : Memory) (lo : Nat) : Bool :=
  match m with
  | [] => true
  | (k, b) :: rest =>
    decide (lo ≤ k) && decide (k < Config.qCap) && decide (b ≠ Memory.unlisted) && Memory.wfFrom rest (k + 1)

/-- The canonical form of the queue storage. -/
def Memory.wf (m : Memory) : Bool := Memory.wfFrom m 0

/-- `push(b)`: the byte goes to `q_wr`, the cursor advances and wraps, the count saturates at `Q_CAP`, and a push into a full queue
sets `q_ovf` (R181, R182). -/
def State.push (b : Byte) (s : State) : State :=
  { s with
    qbuf := Memory.write s.qbuf s.qWr.toNat b
    qWr := s.qWr + 1
    qPend := if s.queueFull then s.qPend else s.qPend + 1
    qOvf := if s.queueFull then true else s.qOvf }

/-- `marker_push(b)`: `push` except that it never sets `q_ovf` (R183). -/
def State.markerPush (b : Byte) (s : State) : State :=
  { s with
    qbuf := Memory.write s.qbuf s.qWr.toNat b
    qWr := s.qWr + 1
    qPend := if s.qPend.toNat < Config.qCap then s.qPend + 1 else s.qPend }

/-- `push` of a named response byte (R86). -/
def State.respond (r : Response) (s : State) : State := s.push r.code

/-- `arm(s, d)`: operation state `o`, to wake `d` ticks from the current tick (R104). -/
def State.arm (o : OpState) (d : Nat) (s : State) : State :=
  { s with opState := o, sched := (s.tick + d) % 2 ^ s.params.tickW, armed := true }

/-- `go_idle()` (R105). It leaves `sched` as it is (log 6). -/
def State.goIdle (s : State) : State := { s with opState := .idle, armed := false }

/-- `cancel()` (R107). It leaves `sched`, `step_n`, `dir`, `cur_cyl` and the queue as they are (log 6). -/
def State.cancel (s : State) : State := { s with opState := .idle, armed := false, idxEn := false }

/-- The packet is handed over whole in an accepting step (R202). -/
def State.sendPacket (p : Packet) (s : State) : State := { s with txLog := s.txLog ++ [p] }

/-- Write the motor bit of the selected drive; with no drive selected none changes (R123). -/
def State.setMotor (v : Bool) (s : State) : State :=
  { s with
    motorOn1 := if s.driveSel = .drive1 then v else s.motorOn1
    motorOn2 := if s.driveSel = .drive2 then v else s.motorOn2 }

/-- To initiate a step pulse is to drive the step line low and arm STEP_PULSE_LOW (R122, R125). -/
def State.startPulse (d : Nat) (s : State) : State := State.arm .stepPulseLow d { s with stepN := false }

/-- The step line rises, which completes the pulse: one `pulse(dir)` event (R125). -/
def State.completePulse (s : State) : State :=
  { s with stepN := true, pulses := s.pulses ++ [{ dir := s.dir, tick := s.tick }] }

/-- `start_read(count)` (R160). -/
def State.startRead (n : Byte) (s : State) : State :=
  State.arm .reading s.params.readTimeout
    { s.cancel with revTarget := n, revCount := 0, idxLatch := false, idxMode := .falling, idxEn := true }

end Sys2Proof.Machine
end

