-- ==== Sys2Proof/Machine/Commands.lean ====
section
/-! DEFINITION. The commands that belong to no other family: HALT, CHECK_DISK and HANDSHAKE (44_command_dispatch.md). -/

namespace Sys2Proof.Machine

/-- HALT: no effect; it does not halt the block (R208). -/
def execHalt (s : State) : Host.Outcome State Fault Refusal := .next s

/-- CHECK_DISK (R207). -/
def execCheckDisk (s : State) : Host.Outcome State Fault Refusal :=
  .next (State.respond (if s.diskPresent then .diskLoaded else .noDisk) s)

/-- HANDSHAKE: one packet straight to the host, past the queue (R206). A sending step exists only while the host accepts (R202), so
while it does not, nothing is sent; the RX step then holds and keeps the frame (log 10). -/
def execHandshake (s : State) : Host.Outcome State Fault Refusal :=
  .next (if s.txAccept then s.sendPacket handshakePacket else s)

end Sys2Proof.Machine
end

