-- ==== Sys2Proof/Machine/Drive.lean ====
section
/-! DEFINITION. The drive commands SELECT_DRIVE, HEAD, CYLINDER and MOTOR, and `poll()` with its wakes (41_drive_state_machine.md). -/

namespace Sys2Proof.Machine

/-- SELECT_DRIVE (R120). -/
def execSelectDrive (param : Byte) (s : State) : Host.Outcome State Fault Refusal :=
  match driveOperand param with
  | none => .next s
  | some d => .next (State.respond .done { s with driveSel := d })

/-- HEAD (R121). -/
def execHead (param : Byte) (s : State) : Host.Outcome State Fault Refusal :=
  match sideOperand param with
  | none => .next s
  | some side => .next (State.respond .done { s with head := side })

/-- The body of CYLINDER with a legal target: cancel, record the target, then complete at once or start a pulse (R122). DEDUCED (log 15),
unsafe: a seek that completes at once leaves `dir` as it is, as R122's pseudocode does, though R130 has a seek to 1..79 end with `dir = OUTWARD`;
the two differ after a cancelled inward seek. -/
def State.seek (t : Byte) (s : State) : State :=
  let c := { s.cancel with tgtCyl := t }
  if t = 0 then
    if s.trk0 then State.respond .done { c with curCyl := 0 }
    else State.startPulse s.params.stepFirstDelay { c with dir := .outward }
  else if t = s.curCyl then State.respond .done c
  else State.startPulse s.params.stepFirstDelay { c with dir := if t > s.curCyl then .inward else .outward }

/-- CYLINDER (R122). -/
def execCylinder (t : Byte) (s : State) : Host.Outcome State Fault Refusal :=
  match cylinderOperand t with
  | none => .next s
  | some t => .next (s.seek t)

/-- MOTOR (R123). -/
def execMotor (v : Byte) (s : State) : Host.Outcome State Fault Refusal :=
  if motorOperand v then .next (State.arm .spinningUp s.params.spinupDelay (s.cancel.setMotor true))
  else .next (State.respond .done (s.setMotor false))

/-- `cur_cyl` after one pulse in direction `d`, modulo 256 (R125). -/
def cylinderAfterPulse (d : Dir) (c : Byte) : Byte :=
  match d with
  | .inward => c + 1
  | .outward => c - 1

/-- The STEP_PULSE_LOW wake (R125). -/
def State.wakeStepPulseLow (s : State) : State :=
  let s1 := s.completePulse
  if s.tgtCyl = 0 ∧ s.trk0 then State.arm .stepSettle s.params.settleDelay { s1 with curCyl := 0 }
  else
    let s2 := { s1 with curCyl := cylinderAfterPulse s.dir s.curCyl }
    if s2.curCyl = s2.tgtCyl then State.arm .stepSettle s.params.settleDelay s2
    else State.startPulse s.params.stepPeriod s2

/-- The STEP_SETTLE wake (R126). -/
def State.wakeStepSettle (s : State) : State := State.goIdle (State.respond .done { s with dir := .outward })

/-- The SPINNING_UP wake (R127). -/
def State.wakeSpinningUp (s : State) : State := State.goIdle (State.respond .done s)

/-- The READING wake, the read timeout (R128). -/
def State.wakeReadTimeout (s : State) : State :=
  State.goIdle { State.respond .indexTimeout s with idxEn := false }

/-- The transition of a poll that services a wake (R124). IDLE is shut out by the wake condition, and `step` refuses a state that holds
STEP_PULSE_HIGH before any poll (R129). -/
def State.wake (s : State) : State :=
  match s.opState with
  | .idle => s
  | .stepPulseLow => s.wakeStepPulseLow
  | .stepPulseHigh => s
  | .stepSettle => s.wakeStepSettle
  | .spinningUp => s.wakeSpinningUp
  | .reading => s.wakeReadTimeout

/-- `poll()`: at most one transition, and none while the wake condition is false (R124). -/
def State.pollOnce (s : State) : State := if s.wakes then s.wake else s

end Sys2Proof.Machine
end

