-- ==== Sys2Proof/Machine/IndexCapture.lean ====
section
/-! DEFINITION. The read commands, the index-line events and the capture reaction (42_index_capture.md). -/

namespace Sys2Proof.Machine

/-- READ_MULTI (R160). -/
def execReadMulti (n : Byte) (s : State) : Host.Outcome State Fault Refusal := .next (s.startRead n)

/-- READ: exactly READ_MULTI with `n = 1` (R161). -/
def execRead (s : State) : Host.Outcome State Fault Refusal := .next (s.startRead 1)

/-- The capture reaction on a transition of the latch to ON (R165); the very first on-edge also disarms the timeout (R166). -/
def State.captureOn (s : State) : State :=
  let c := State.respond .indexOn { s with idxLatch := true, revCount := (s.revCount + 1) % 2 ^ s.params.revW }
  if s.idxMode = .falling then { c with idxMode := .both, armed := false } else c

/-- The capture reaction on a transition of the latch to OFF (R165). The ending off-edge clears `op_state`, `armed` and with it the scheduled
wake (R54 in R22's terms). DEDUCED (log 6), unsafe: the number in `sched` stays, as in R165's pseudocode and vectors X2 and P2; nothing reads it
while `armed` is 0. -/
def State.captureOff (s : State) : State :=
  let c := State.respond .indexOff { s with idxLatch := false }
  if s.revsExceeded then
    State.respond .done { c with opState := .idle, armed := false, idxEn := false }
  else c

/-- `capture()`: the latch toggles on every qualifying edge (R165). -/
def State.capture (s : State) : State := if s.idxLatch then s.captureOff else s.captureOn

/-- IDX_FALL, enabled when `idx_line = 1` (R162). On a low line INDEX has no such move and nothing happens (log 3). -/
def State.idxFall (s : State) : State :=
  if s.idxLine then
    if s.fallQualifies then State.capture { s with idxLine := false } else { s with idxLine := false }
  else s

/-- IDX_RISE, enabled when `idx_line = 0` (R162). On a high line INDEX has no such move and nothing happens (log 3). -/
def State.idxRise (s : State) : State :=
  if s.idxLine then s
  else if s.riseQualifies then State.capture { s with idxLine := true } else { s with idxLine := true }

end Sys2Proof.Machine
end

