-- ==== Sys2Proof/Machine/Dispatch.lean ====
section
/-! DEFINITION. The effect of each command frame (the case of `dispatch(pkt)`, R205). -/

namespace Sys2Proof.Machine

/-- What a command frame does inside the RX step that consumes it (R205). -/
def exec (i : Instr) (s : State) : Host.Outcome State Fault Refusal :=
  match i with
  | .halt => Sys2Proof.Machine.execHalt s
  | .selectDrive param => Sys2Proof.Machine.execSelectDrive param s
  | .cylinder t => Sys2Proof.Machine.execCylinder t s
  | .head param => Sys2Proof.Machine.execHead param s
  | .checkDisk => Sys2Proof.Machine.execCheckDisk s
  | .motor v => Sys2Proof.Machine.execMotor v s
  | .read => Sys2Proof.Machine.execRead s
  | .readMulti n => Sys2Proof.Machine.execReadMulti n s
  | .handshake => Sys2Proof.Machine.execHandshake s

end Sys2Proof.Machine
end

