-- ==== Sys2Proof/Machine/Timer.lean ====
section
/-! DEFINITION. The TICK step of the TIMER agent. -/

namespace Sys2Proof.Machine

/-- `overflow_detector()`: an overflow found set is cleared and queues one OVERFLOW byte (R184). -/
def State.overflowDetector (s : State) : State :=
  if s.qOvf then State.markerPush Response.overflow.code { s with qOvf := false } else s

/-- TICK: the counter advances modulo 2^TICK_W, then the detector runs (R100). -/
def State.tickStep (s : State) : State :=
  State.overflowDetector { s with tick := (s.tick + 1) % 2 ^ s.params.tickW }

end Sys2Proof.Machine
end

