-- ==== Sys2Proof/Machine/MainLoop.lean ====
section
/-! DEFINITION. The main-loop sequencer (44_command_dispatch.md), the moves of the host and the sensors, and which event comes next. -/

namespace Sys2Proof.Machine

/-- The accepting step of `drain()`: the block the writer is not in goes to the host, and the count drops by 64 (R187, R188). -/
def State.drainBlock (s : State) : State :=
  { s with
    txLog := s.txLog ++ [Memory.readBlock s.qbuf s.drainBase Config.qBlock]
    qPend := s.qPend - BitVec.ofNat 8 Config.qBlock }

/-- DRAIN phase step: it holds while a block is pending and the host does not accept (R201, R202). -/
def State.drainPhase (s : State) : State :=
  if s.blockPending then
    if s.txAccept then { s.drainBlock with mlPhase := .rx } else s
  else { s with mlPhase := .rx }

/-- A packet whose byte 0 is the HANDSHAKE opcode is consumed only in a step at which the host accepts the reply (R203). -/
def holdsForReply (pkt : Packet) (s : State) : Bool :=
  pkt.head? == some Opcode.handshake.code && !s.txAccept

/-- `dispatch(pkt)`: the packet's command, or nothing for a packet that holds none (R205, R209, R210). -/
def dispatchPacket (pkt : Packet) (s : State) : Host.Outcome State Fault Refusal :=
  match decode pkt with
  | .error _ => .next s
  | .ok i => exec i s

/-- Go on with a next state; a stop stays a stop. -/
def onNext (o : Host.Outcome State Fault Refusal) (f : State → State) : Host.Outcome State Fault Refusal :=
  match o with
  | .next s => .next (f s)
  | .fault r => .fault r
  | .refused r => .refused r

/-- Set the phase (R200). -/
def State.withPhase (p : MlPhase) (s : State) : State := { s with mlPhase := p }

/-- RX phase step: at most one packet is consumed (R203). -/
def State.rxPhase (s : State) : Host.Outcome State Fault Refusal :=
  match s.rxFifo with
  | [] => .next (s.withPhase .poll)
  | pkt :: rest =>
    if holdsForReply pkt s then .next s
    else onNext (dispatchPacket pkt { s with rxFifo := rest }) (State.withPhase .poll)

/-- POLL phase step (R204). -/
def State.pollPhase (s : State) : State := s.pollOnce.withPhase .drain

/-- The step of MAIN that `ml_phase` names (R200). -/
def State.mainStep (s : State) : Host.Outcome State Fault Refusal :=
  match s.mlPhase with
  | .drain => .next s.drainPhase
  | .rx => s.rxPhase
  | .poll => .next s.pollPhase

/-- HOST appends a packet (R43). The transport never delivers one longer than 64 bytes: such a packet is no move (R213, log 3). -/
def State.hostSend (pkt : Packet) (s : State) : State :=
  if pkt.length ≤ Config.packetMax then { s with rxFifo := s.rxFifo ++ [pkt] } else s

/-- One event: one atomic step of one agent (R14, R20). -/
def takeEvent (e : Event) (s : State) : Host.Outcome State Fault Refusal :=
  match e with
  | .tick => .next s.tickStep
  | .idxFall => .next s.idxFall
  | .idxRise => .next s.idxRise
  | .main => s.mainStep
  | .hostSend pkt => .next (s.hostSend pkt)
  | .hostAccept on => .next { s with txAccept := on }
  | .setTrk0 v => .next { s with trk0 := v }
  | .setDisk v => .next { s with diskPresent := v }
  | .setWpt v => .next { s with wpt := v }

/-- The event that comes next: the agenda's head, or a free value when the agenda is empty (R240, log 2). -/
def State.nextEvent (s : State) : Event :=
  match s.agenda with
  | e :: _ => e
  | [] => Config.freeEvent s.draws

/-- The state once the next event has been chosen (log 2). -/
def State.afterChoice (s : State) : State :=
  { s with
    agenda := s.agenda.tail
    draws := if s.agenda.isEmpty then s.draws + 1 else s.draws }

/-- A state in which MAIN's RX step is next and finds `pkt` at the head of `rx_fifo`; a HANDSHAKE frame also needs a host that accepts
(R203, log 11). -/
def State.withPacketNext (pkt : Packet) (s : State) : State :=
  { s with
    agenda := .main :: s.agenda
    mlPhase := .rx
    rxFifo := pkt :: s.rxFifo
    txAccept := s.txAccept || pkt.head? == some Opcode.handshake.code }

end Sys2Proof.Machine
end

