-- ==== Sys2Proof/Machine/Outputs.lean ====
section
/-! DEFINITION. The logical output lines and the observation (10_state.md R45, R46). -/

namespace Sys2Proof.Machine

/-- The logical output lines (R45); `step` is low while a pulse is in progress. -/
structure Lines where
  ds1 : Bool
  ds2 : Bool
  mote1 : Bool
  mote2 : Bool
  dir : BitVec 1
  step : Bool
  side : Bool
deriving DecidableEq, Repr

/-- The lines as functions of the state, at every instant (R45). -/
def State.lines (s : State) : Lines where
  ds1 := s.driveSel == .drive1
  ds2 := s.driveSel == .drive2
  mote1 := s.motorOn1
  mote2 := s.motorOn2
  dir := s.dir.code
  step := s.stepN
  side := s.head

/-- What can be observed at one instant: the packets so far, the pulse events so far, and the lines now (R46). The ticks noted with the
pulses are left out (log 12). -/
structure Observation where
  packets : List Packet
  pulses : List Dir
  lines : Lines
deriving DecidableEq, Repr

/-- The observation of a state (R46). -/
def State.observe (s : State) : Observation where
  packets := s.txLog
  pulses := s.pulses.map Pulse.dir
  lines := s.lines

end Sys2Proof.Machine
end

