-- ==== Sys2Proof/Machine/Step.lean ====
section
/-! DEFINITION. One step of the block, and the placing of a frame word where the next step runs it. -/

namespace Sys2Proof.Machine

/-- One atomic step: the next event, taken by its agent (R14, R240), unless the model refuses the state (R129, R271). -/
def step (s : State) : Host.Outcome State Fault Refusal :=
  match s.refusal with
  | some r => .refused r
  | none => takeEvent s.nextEvent s.afterChoice

/-- The state with the frame word `w` delivered and MAIN's RX step next (R82, R203, log 11). -/
def State.withFetchWord (s : State) (nbits w : Nat) : State := s.withPacketNext (packetOfWord nbits w)

end Sys2Proof.Machine
end

