-- ==== Sys2Proof/WellFormed.lean ====
section
/-! DEFINITION. The legal operands of the command frames. -/

namespace Sys2Proof

/-- The operand lies in the legal range of R83. A frame outside it decodes and is consumed with no effect (R95), so no meaning and no
round trip below assumes this; it says which frames a host that wants an effect sends (log 14). -/
def Instr.wellFormed : Instr → Bool
  | .selectDrive p => p ≤ 2
  | .cylinder t => t ≤ Config.cylMax
  | .head p => p ≤ 1
  | .halt | .checkDisk | .motor _ | .read | .readMulti _ | .handshake => true

end Sys2Proof
end

