-- ==== Sys2Proof/Safety.lean ====
section
/-! DEFINITION. The terms claims are made in: runs and host scripts, the invariant, the effect of a push, quiescence, and the spec's
derived laws as predicates on states. -/

namespace Sys2Proof.Machine

/-! ### Runs and scripts -/

/-- The run of a host script: the listed events, one step each, from `s` (R92). -/
def runScript (script : List Event) (s : State) : Host.Outcome State Fault Refusal :=
  Host.Core.run Sys2Proof.core script.length { s with agenda := script }

/-- `ITER`: DRAIN, RX and POLL (R92, R200). -/
def iteration : List Event := [.main, .main, .main]

/-- `WAIT n`: `n` repetitions of TICK followed by ITER (R92). -/
def wait (n : Nat) : List Event := (List.replicate n (Event.tick :: iteration)).flatten

/-- `n` index pulses: `n` times FALL, RISE (R92). -/
def indexPulses (n : Nat) : List Event := (List.replicate n [Event.idxFall, Event.idxRise]).flatten

/-- The run `r` of an infinite schedule `e`: the `n`-th step takes the event `e n` (R240). -/
def IsRun (e : Nat → Event) (r : Nat → State) : Prop := ∀ n, step { r n with agenda := [e n] } = .next (r (n + 1))

/-- TIMER is fair in a schedule: TICK occurs infinitely often (R101, R240). -/
def TimerFair (e : Nat → Event) : Prop := ∀ n, ∃ m, n ≤ m ∧ e m = .tick

/-- MAIN has a step: it does not have to hold on the transport (R202, R240). -/
def State.mainEnabled (s : State) : Prop :=
  s.txAccept = true ∨
    match s.mlPhase with
    | .drain => s.blockPending = false
    | .rx => (s.rxFifo.head?.bind List.head?) ≠ some Opcode.handshake.code
    | .poll => True

/-- MAIN is weakly fair in a run: if it stays enabled it eventually takes a step (R240). -/
def MainWeaklyFair (e : Nat → Event) (r : Nat → State) : Prop :=
  ∀ n, (∀ m, n ≤ m → (r m).mainEnabled) → ∃ m, n ≤ m ∧ e m = .main

/-! ### What the next step is -/

/-- The next step is MAIN's step of phase `p`. -/
def State.mainNext (p : MlPhase) (s : State) : Prop := s.nextEvent = .main ∧ s.mlPhase = p

/-- The next step is the RX step that consumes the frame `i` (R203). -/
def State.rxNext (i : Instr) (s : State) : Prop :=
  s.mainNext .rx ∧ ∃ pkt rest, s.rxFifo = pkt :: rest ∧ decode pkt = .ok i

/-- The arming commands (R211): each cancels the pending operation. -/
def Instr.arming : Instr → Bool
  | .cylinder t => t ≤ Config.cylMax
  | .motor v => v != 0
  | .read => true
  | .readMulti _ => true
  | .halt | .selectDrive _ | .head _ | .checkDisk | .handshake => false

/-- The next step consumes an arming command (R211). -/
def State.armingNext (s : State) : Prop := ∃ i, Instr.arming i = true ∧ s.rxNext i

/-- The commands that push their response in the RX step itself (R120 to R123, R207). -/
def Instr.answersAtOnce (s : State) : Instr → Bool
  | .selectDrive p => p ≤ 2
  | .cylinder t => t ≤ Config.cylMax && (if t = 0 then s.trk0 else t == s.curCyl)
  | .head p => p ≤ 1
  | .checkDisk => true
  | .motor v => v == 0
  | .halt | .read | .readMulti _ | .handshake => false

/-- The next step is a change of the synchronised index level (R162). -/
def State.edgeNext (s : State) : Prop :=
  (s.nextEvent = .idxFall ∧ s.idxLine = true) ∨ (s.nextEvent = .idxRise ∧ s.idxLine = false)

/-- The next step is an index edge that qualifies for the capture reaction (R164). -/
def State.captureNext (s : State) : Prop :=
  s.idxEn = true ∧
    ((s.nextEvent = .idxFall ∧ s.idxLine = true) ∨
      (s.nextEvent = .idxRise ∧ s.idxLine = false ∧ s.idxMode = .both))

/-- The next step is a POLL step that services a wake (R124). -/
def State.wakeNext (s : State) : Prop := s.mainNext .poll ∧ s.wakes = true

/-- The next step calls `push` or `marker_push`: an RX step that answers at once, a wake that ends an operation, a TICK that finds an overflow,
or an index edge that qualifies (R54). -/
def State.pushNext (s : State) : Prop :=
  (∃ i, Instr.answersAtOnce s i = true ∧ s.rxNext i) ∨ (s.wakeNext ∧ s.opState ≠ .stepPulseLow) ∨
    (s.nextEvent = .tick ∧ s.qOvf = true) ∨ s.captureNext

/-! ### The effect of a push, and the invariant -/

/-- `t` is `s` after `push(b)` (R181, R182): every byte of the queue storage, the cursor, the count and the overflow flag; every other
field is that of `s`. -/
def PushedOnto (b : Byte) (s t : State) : Prop :=
  (∀ a, Memory.read t.qbuf a = if a = s.qWr.toNat then b else Memory.read s.qbuf a) ∧
  t = { s with
    qbuf := t.qbuf
    qWr := s.qWr + 1
    qPend := if s.qPend.toNat = 128 then s.qPend else s.qPend + 1
    qOvf := if s.qPend.toNat = 128 then true else s.qOvf }

/-- `push` of each byte of a list, in order. -/
def pushAll (l : List Byte) (s : State) : State := l.foldl (fun u b => u.push b) s

/-- What holds at reset and every step keeps. -/
structure State.Inv (s : State) : Prop where
  /-- The parameters obey R8 and R106. -/
  validParams : Params.valid s.params = true
  /-- `tick` fits its width (R21). -/
  tickRange : s.tick < 2 ^ s.params.tickW
  /-- `sched` fits its width (R22). -/
  schedRange : s.sched < 2 ^ s.params.tickW
  /-- `rev_count` fits its width (R35). -/
  revRange : s.revCount < 2 ^ s.params.revW
  /-- STEP_PULSE_HIGH is never entered (R129). -/
  notPulseHigh : s.opState ≠ .stepPulseHigh
  /-- R24 (a). -/
  armedBusy : s.armed = true → s.opState ≠ .idle
  /-- R24 (b). -/
  waitArmed : s.opState = .stepPulseLow ∨ s.opState = .stepSettle ∨ s.opState = .spinningUp → s.armed = true
  /-- R24 (c). -/
  timeoutCount : s.opState = .reading → s.armed = true → s.revCount = 0
  /-- R24 (d). -/
  enabledReading : s.idxEn = true ↔ s.opState = .reading
  /-- In a session the timeout is armed until the first on-edge switches the trigger mode (R165, R166). -/
  firstEdge : s.opState = .reading → (s.armed = true ↔ s.idxMode = .falling)
  /-- Before the first on-edge the latch is OFF and nothing is counted (R160). -/
  beforeFirst : s.opState = .reading → s.idxMode = .falling → s.idxLatch = false ∧ s.revCount = 0
  /-- After the first on-edge the latch is ON exactly while the line is low (R170). -/
  latchLine : s.opState = .reading → s.idxMode = .both → s.idxLatch = !s.idxLine
  /-- With a wide enough counter the count passes the target by at most one (R172). -/
  revBound : 256 < 2 ^ s.params.revW → s.opState = .reading →
    s.revCount ≤ s.revTarget.toNat + 1 ∧ (s.idxLatch = false → s.revCount ≤ s.revTarget.toNat)
  /-- `q_pend` ranges over 0..128 (R40). -/
  pendRange : s.qPend.toNat ≤ 128
  /-- `tgt_cyl` is a legal cylinder (R29). -/
  targetRange : s.tgtCyl.toNat ≤ 79
  /-- The step line is low while STEP_PULSE_LOW waits and high while the head settles (R23, R125). -/
  stepLine : (s.opState = .stepPulseLow → s.stepN = false) ∧ (s.opState = .stepSettle → s.stepN = true)
  /-- The queue storage is in its canonical form. -/
  storage : Memory.wf s.qbuf = true
  /-- No delivered packet is longer than 64 bytes (R213). -/
  packetsIn : ∀ p ∈ s.rxFifo, p.length ≤ 64
  /-- Every packet sent is a 64-byte block or the handshake reply (R88). -/
  packetsOut : ∀ p ∈ s.txLog, p.length = 64 ∨ p = handshakePacket

/-! ### The queue as a FIFO -/

/-- The unsent bytes are `l`, oldest first: they end just before `q_wr`, and the queue has not filled (R189). -/
def State.Unsent (s : State) (l : List Byte) : Prop :=
  l.length = s.qPend.toNat ∧ l.length < 128 ∧ s.qPend.toNat % 64 = s.qWr.toNat % 64 ∧
    ∀ i (h : i < l.length), Memory.read s.qbuf ((s.qWr.toNat + 128 - l.length + i) % 128) = l[i]

/-- The bytes of every block sent so far, in order (R88, R189). -/
def State.bytesSent (s : State) : List Byte := (s.txLog.filter fun p => p.length == 64).flatten

/-- The response bytes that the block pushes (R86, R87). -/
def pushedCodes : List Byte := [0xC1, 0xC2, 0xC3, 0xC4, 0xC5, 0xC6, 0xC8]

/-! ### Quiescence, the transition table, and seeks -/

/-- A quiescent state (R212). -/
def State.Quiescent (s : State) : Prop :=
  s.opState = .idle ∧ s.armed = false ∧ s.idxEn = false ∧ s.qOvf = false ∧ s.qPend.toNat ≤ 64 ∧ s.rxFifo = []

/-- One row of the transition summary (R139) takes the operation state of `s` to that of `t`, or it stays. -/
def OpEdge (s t : State) : Prop :=
  t.opState = s.opState ∨
  (∃ c, s.rxNext (.cylinder c) ∧ c.toNat ≤ 79 ∧
    (((c = 0 ∧ s.trk0 = true ∨ c ≠ 0 ∧ c = s.curCyl) ∧ t.opState = .idle) ∨
      ((c = 0 ∧ s.trk0 = false ∨ c ≠ 0 ∧ c ≠ s.curCyl) ∧ t.opState = .stepPulseLow))) ∨
  (∃ v, s.rxNext (.motor v) ∧ v ≠ 0 ∧ t.opState = .spinningUp) ∨
  ((s.rxNext .read ∨ ∃ n, s.rxNext (.readMulti n)) ∧ t.opState = .reading) ∨
  (s.wakeNext ∧ s.opState = .stepPulseLow ∧ t.opState = .stepSettle ∧
    (s.tgtCyl = 0 ∧ s.trk0 = true ∨ t.curCyl = s.tgtCyl)) ∨
  (s.wakeNext ∧ (s.opState = .stepSettle ∨ s.opState = .spinningUp ∨ s.opState = .reading ∧ s.armed = true) ∧
    t.opState = .idle) ∨
  (s.captureNext ∧ s.opState = .reading ∧ s.idxLatch = true ∧ s.revTarget.toNat < s.revCount ∧ t.opState = .idle)

/-- The pulses a seek to `n` takes from `m` when the track-0 sensor stays off: the distance; all the way round for 0 from 0 (R130, R132,
R138). -/
def pulsesNeeded (n m : Byte) : Nat :=
  if m.toNat < n.toNat then n.toNat - m.toNat else if n.toNat < m.toNat then m.toNat - n.toNat else 256

/-- How far a seek to 0 has come that was accepted at cylinder `m` after `p0` pulses (R131). -/
def SeekZeroProgress (m p0 : Nat) (s : State) : Prop :=
  (s.opState = .stepPulseLow ∧ s.tgtCyl = 0 ∧ s.dir = .outward ∧ 1 ≤ s.curCyl.toNat ∧
    s.pulses.length + s.curCyl.toNat = p0 + m) ∨
  (s.opState = .stepSettle ∧ s.curCyl = 0 ∧ s.pulses.length ≤ p0 + m) ∨
  (s.opState = .idle ∧ s.curCyl = 0 ∧ s.dir = .outward ∧ s.pulses.length ≤ p0 + m)

end Sys2Proof.Machine
end

