-- ==== Sys2Proof/Certificates/Slice0/Obligations.lean ====
section
/-! DEFINITION. The statements for the provers. `s.refusal = none` says that the model runs from `s`: its parameters obey R8 and R106, and it
does not hold STEP_PULSE_HIGH. Every other premise is on the state and the operands. -/

open Sys2Proof Sys2Proof.Machine

/-! ### Reset -/

/-- R52: the reset value of every field, for every value of the fields R52 marks "any" and of the inputs (the log 4 and log 5 choices of
`State.reset` are one case of it). -/
def Obligations.ResetHoldsTheTableValues : Prop :=
  ∀ (p : Params) (line acc t0 disk wpt : Bool) (m : Memory),
    let s := State.resetWith p line m acc t0 disk wpt
    s.tick = 0 ∧ s.sched = 0 ∧ s.armed = false ∧ s.opState.code = 0 ∧ s.driveSel.code = 0 ∧ s.head = false ∧
    s.motorOn1 = false ∧ s.motorOn2 = false ∧ s.curCyl = 255 ∧ s.tgtCyl = 0 ∧ s.dir.code = 0 ∧ s.stepN = true ∧
    s.idxEn = false ∧ s.idxMode.code = 0 ∧ s.idxLatch = false ∧ s.revCount = 0 ∧ s.revTarget = 0 ∧ s.idxLine = line ∧
    s.qbuf = m ∧ s.qWr = 0 ∧ s.qPend = 0 ∧ s.qOvf = false ∧ s.mlPhase = .drain ∧ s.rxFifo = [] ∧
    (∃ p' line' m' acc' t0' disk' wpt', State.reset = State.resetWith p' line' m' acc' t0' disk' wpt')

/-- The outputs after reset (70_reset_and_hazards.md section 1): no line asserted, the step line high, nothing sent, no pulse. -/
def Obligations.ResetDrivesNeutralOutputs : Prop :=
  ∀ (p : Params) (line acc t0 disk wpt : Bool) (m : Memory),
    (State.resetWith p line m acc t0 disk wpt).observe =
      { packets := [], pulses := [],
        lines := { ds1 := false, ds2 := false, mote1 := false, mote2 := false, dir := 0, step := true, side := false } }

/-- The invariant holds at reset whatever the open values are, for parameters the model accepts and queue storage in its canonical
form. -/
def Obligations.ResetMeetsInvariant : Prop :=
  (∀ (p : Params) (line acc t0 disk wpt : Bool) (m : Memory), Params.valid p = true → Memory.wf m = true →
    (State.resetWith p line m acc t0 disk wpt).Inv) ∧ State.reset.Inv

/-- R45: the logical output lines are functions of the state, at every instant. -/
def Obligations.LinesFollowState : Prop :=
  ∀ s : State,
    (s.lines.ds1 = true ↔ s.driveSel.code = 1) ∧ (s.lines.ds2 = true ↔ s.driveSel.code = 2) ∧
    s.lines.mote1 = s.motorOn1 ∧ s.lines.mote2 = s.motorOn2 ∧ s.lines.dir = s.dir.code ∧ s.lines.step = s.stepN ∧
    s.lines.side = s.head

/-! ### Encoding -/

/-- A few frames written out byte by byte from R83's patterns decode to what they stand for. -/
def Obligations.WrittenFramesDecode : Prop :=
  decode [0b00000000] = .ok .halt ∧ decode [0b00000001, 0b00000010] = .ok (.selectDrive 2) ∧
  decode [0b00000010, 0b00101000] = .ok (.cylinder 40) ∧ decode [0b00000011, 0b00000001] = .ok (.head 1) ∧
  decode [0b00000100] = .ok .checkDisk ∧ decode [0b00000101, 0b11111111] = .ok (.motor 255) ∧
  decode [0b00000110, 0b00000111] = .ok .read ∧ decode [0b00000111, 0b01100100] = .ok (.readMulti 100) ∧
  decode [0b01101001, 0, 0] = .ok .handshake ∧ decodeTableWord 16 0x2802 = some (.cylinder 40)

/-- Decoding and encoding agree in both directions: a packet carries frame `i` exactly when it begins with the bytes of `i`; what follows
them is ignored. No bit of an operand is dropped, and no packet carries two frames. -/
def Obligations.PacketCarriesFrameIffItBeginsWithIt : Prop :=
  ∀ (pkt : Packet) (i : Instr), decode pkt = .ok i ↔ encode i <+: pkt

/-- Which packets carry no frame, and why: the empty one, an opcode outside R83's column, a missing parameter. -/
def Obligations.PacketsWithoutFrame : Prop :=
  (∀ pkt, decode pkt = .error .emptyPacket ↔ pkt = []) ∧
  (∀ pkt b, decode pkt = .error (.unknownOpcode b) ↔ pkt.head? = some b ∧ 7 < b.toNat ∧ b ≠ 0x69) ∧
  (∀ pkt b, decode pkt = .error (.missingParameter b) ↔ pkt = [b] ∧ b ∈ [0x01, 0x02, 0x03, 0x05, 0x07])

/-! ### Primitives -/

/-- R103: the due test is the unsigned modular difference below the lateness bound; it reads neither `armed` nor anything else. -/
def Obligations.DueIsModularDifference : Prop :=
  ∀ s : State, s.due = true ↔ ((s.tick : Int) - s.sched) % (2 ^ s.params.tickW : Int) < s.params.lateBound

/-- Window recurrence (40_tick_clock.md section 3): the wake is due at exactly LATE_BOUND consecutive tick values from `sched`, across the
wrap too. -/
def Obligations.DueWindow : Prop :=
  ∀ s : State, Params.valid s.params = true → s.tick < 2 ^ s.params.tickW →
    (s.due = true ↔ ∃ k, k < s.params.lateBound ∧ s.tick = (s.sched + k) % 2 ^ s.params.tickW)

/-- After `arm(o, d)` with a legal delay the wake is not due for `d` ticks and is first due at the `d`-th. -/
def Obligations.ArmedWakeFirstDueAfterDelay : Prop :=
  ∀ (s : State) (o : OpState) (d : Nat), Params.valid s.params = true → 1 ≤ d → d ≤ 2 ^ s.params.tickW - s.params.lateBound →
    (∀ j, j < d → ({ s.arm o d with tick := (s.tick + j) % 2 ^ s.params.tickW } : State).due = false) ∧
    ({ s.arm o d with tick := (s.tick + d) % 2 ^ s.params.tickW } : State).due = true

/-- R181 and R182: `push` appends at the cursor, which wraps; a push into a full queue overwrites, keeps the count at 128 and sets the
overflow flag. Every other byte and every other field stays, and the storage stays canonical. -/
def Obligations.PushAppendsOrOverwrites : Prop :=
  ∀ (b : Byte) (s : State), Memory.wf s.qbuf = true →
    PushedOnto b s (s.push b) ∧ (s.push b).qWr.toNat = (s.qWr.toNat + 1) % 128 ∧ Memory.wf (s.push b).qbuf = true

/-! ### The nine commands -/

/-- R120, SELECT_DRIVE: the drive and its select lines, one DONE; above 2 nothing. -/
def Obligations.SelectDriveSetsDriveAndAnswersDone : Prop :=
  ∀ (p : Byte) (s : State),
    encode (.selectDrive p) = [0x01, p] ∧
    (p.toNat ≤ 2 → ∃ t, exec (.selectDrive p) s = .next t ∧ PushedOnto 0xC1 { s with driveSel := t.driveSel } t ∧
      t.driveSel.code.toNat = p.toNat ∧ t.lines.ds1 = (p == 1) ∧ t.lines.ds2 = (p == 2)) ∧
    (2 < p.toNat → exec (.selectDrive p) s = .next s)

/-- R121, HEAD: the side and its line, one DONE, also for the side already selected; above 1 nothing. -/
def Obligations.HeadSetsSideAndAnswersDone : Prop :=
  ∀ (p : Byte) (s : State),
    encode (.head p) = [0x03, p] ∧
    (p.toNat ≤ 1 → ∃ t, exec (.head p) s = .next t ∧ PushedOnto 0xC1 { s with head := p == 1 } t ∧ t.lines.side = (p == 1)) ∧
    (1 < p.toNat → exec (.head p) s = .next s)

/-- CYLINDER (41_drive_state_machine.md section 1): its cases, each with everything it leaves unchanged. That a seek to the current cylinder
leaves `dir` is the model's choice (log 15): R122's pseudocode writes no `dir` there, R130 says that the seek ends with `dir = OUTWARD`. That the
cases that complete at once leave `sched` is the model's choice too (log 6). -/
def Obligations.CylinderSeeksOrCompletesAtOnce : Prop :=
  ∀ (t : Byte) (s : State),
    let base : State := { s with opState := .idle, armed := false, idxEn := false, tgtCyl := t }
    let start := fun d : Dir => ({ base with
      dir := d, stepN := false, opState := .stepPulseLow, armed := true
      sched := (s.tick + s.params.stepFirstDelay) % 2 ^ s.params.tickW } : State)
    encode (.cylinder t) = [0x02, t] ∧
    (79 < t.toNat → exec (.cylinder t) s = .next s) ∧
    (t = 0 → s.trk0 = true → ∃ u, exec (.cylinder t) s = .next u ∧ PushedOnto 0xC1 { base with curCyl := 0 } u) ∧
    (t = 0 → s.trk0 = false → exec (.cylinder t) s = .next (start .outward)) ∧
    (t ≠ 0 → t.toNat ≤ 79 → t = s.curCyl → ∃ u, exec (.cylinder t) s = .next u ∧ PushedOnto 0xC1 base u) ∧
    (t ≠ 0 → t.toNat ≤ 79 → s.curCyl.toNat < t.toNat → exec (.cylinder t) s = .next (start .inward)) ∧
    (t ≠ 0 → t.toNat ≤ 79 → t.toNat < s.curCyl.toNat → exec (.cylinder t) s = .next (start .outward))

/-- R123, MOTOR: off clears the selected drive's bit and answers DONE at once without touching a pending operation; on cancels, sets the
bit and arms the full spin-up; with no drive selected no bit changes. -/
def Obligations.MotorSwitchesSelectedDrive : Prop :=
  ∀ (v : Byte) (s : State),
    encode (.motor v) = [0x05, v] ∧
    (v = 0 → ∃ t, exec (.motor v) s = .next t ∧
      PushedOnto 0xC1 { s with
        motorOn1 := if s.driveSel = .drive1 then false else s.motorOn1
        motorOn2 := if s.driveSel = .drive2 then false else s.motorOn2 } t ∧
      t.lines.mote1 = t.motorOn1 ∧ t.lines.mote2 = t.motorOn2) ∧
    (v ≠ 0 → exec (.motor v) s = .next { s with
      motorOn1 := if s.driveSel = .drive1 then true else s.motorOn1
      motorOn2 := if s.driveSel = .drive2 then true else s.motorOn2
      idxEn := false
      opState := .spinningUp
      armed := true
      sched := (s.tick + s.params.spinupDelay) % 2 ^ s.params.tickW })

/-- R160, READ_MULTI: a fresh session for every count 0..255; nothing else changes. -/
def Obligations.ReadMultiOpensSession : Prop :=
  ∀ (n : Byte) (s : State),
    encode (.readMulti n) = [0x07, n] ∧
    exec (.readMulti n) s = .next { s with
      revTarget := n, revCount := 0, idxLatch := false, idxMode := .falling, idxEn := true, opState := .reading
      armed := true, sched := (s.tick + s.params.readTimeout) % 2 ^ s.params.tickW }

/-- R161, READ: exactly READ_MULTI with parameter 1, byte 1 of the packet ignored. -/
def Obligations.ReadIsReadMultiOne : Prop :=
  (∀ rest : Packet, decode (0x06 :: rest) = .ok .read) ∧
  ∀ s : State, exec .read s = exec (.readMulti 1) s ∧
    exec .read s = .next { s with
      revTarget := 1, revCount := 0, idxLatch := false, idxMode := .falling, idxEn := true, opState := .reading
      armed := true, sched := (s.tick + s.params.readTimeout) % 2 ^ s.params.tickW }

/-- R207, CHECK_DISK: one byte, DISK_LOADED or NO_DISK, by the input at this step; nothing else changes. -/
def Obligations.CheckDiskReportsMedia : Prop :=
  (∀ rest : Packet, decode (0x04 :: rest) = .ok .checkDisk) ∧
  ∀ s : State, ∃ t, exec .checkDisk s = .next t ∧ PushedOnto (if s.diskPresent then 0xC6 else 0xC5) s t

/-- R208, HALT: the frame is consumed and nothing else changes. -/
def Obligations.HaltHasNoEffect : Prop :=
  (∀ rest : Packet, decode (0x00 :: rest) = .ok .halt) ∧ (∀ s : State, exec .halt s = .next s) ∧
  ∀ (s : State) (more : Packet) (fifo : List Packet), s.refusal = none → s.mainNext .rx → s.rxFifo = (0x00 :: more) :: fifo →
    step s = .next { s.afterChoice with rxFifo := fifo, mlPhase := .poll }

/-- R206, HANDSHAKE: while the host accepts, exactly the eleven bytes, past the queue, whatever the state; while it does not, MAIN holds in
RX with the frame at the head of `rx_fifo`. -/
def Obligations.HandshakeAnswersElevenBytes : Prop :=
  (∀ rest : Packet, decode (0x69 :: rest) = .ok .handshake) ∧
  (∀ s : State, s.txAccept = true → exec .handshake s =
    .next { s with txLog := s.txLog ++ [[0x46, 0x4C, 0x4F, 0x50, 0x50, 0x59, 0x54, 0x48, 0x49, 0x4E, 0x47]] }) ∧
  (∀ (s : State) (more : Packet) (fifo : List Packet), s.refusal = none → s.mainNext .rx →
    s.rxFifo = (0x69 :: more) :: fifo → s.txAccept = false → step s = .next s.afterChoice)

/-- R95: a frame whose parameter lies outside its legal range is consumed with no effect; MOTOR and READ_MULTI accept every parameter. -/
def Obligations.OutOfRangeFramesDoNothing : Prop :=
  (∀ (i : Instr) (s : State), i.wellFormed = false → exec i s = .next s) ∧
  (∀ (i : Instr) (s : State) (pkt : Packet) (rest : List Packet), i.wellFormed = false → s.refusal = none → s.mainNext .rx →
    s.rxFifo = pkt :: rest → decode pkt = .ok i → step s = .next { s.afterChoice with rxFifo := rest, mlPhase := .poll }) ∧
  (∀ p : Byte, (Instr.selectDrive p).wellFormed = decide (p.toNat ≤ 2)) ∧
  (∀ t : Byte, (Instr.cylinder t).wellFormed = decide (t.toNat ≤ 79)) ∧
  (∀ p : Byte, (Instr.head p).wellFormed = decide (p.toNat ≤ 1)) ∧
  (∀ v : Byte, (Instr.motor v).wellFormed = true) ∧ (∀ n : Byte, (Instr.readMulti n).wellFormed = true)

/-- The immediate commands leave a pending operation, an open read session and the seek registers as they are (44_command_dispatch.md
section 3). -/
def Obligations.ImmediateCommandsKeepOperation : Prop :=
  ∀ (i : Instr) (s t : State), Instr.arming i = false → exec i s = .next t →
    t = { s with
      driveSel := t.driveSel, head := t.head, motorOn1 := t.motorOn1, motorOn2 := t.motorOn2
      qbuf := t.qbuf, qWr := t.qWr, qPend := t.qPend, qOvf := t.qOvf, txLog := t.txLog }

/-! ### The main loop -/

/-- A step runs the decoded frame: when MAIN's RX step is next and the packet at the head of `rx_fifo` decodes to `i`, the step is `exec i` on
the state with the event and the packet consumed, and the phase moves to POLL. -/
def Obligations.RxStepRunsDecodedFrame : Prop :=
  ∀ (s : State) (pkt : Packet) (rest : List Packet) (i : Instr),
    s.refusal = none → s.mainNext .rx → s.rxFifo = pkt :: rest → decode pkt = .ok i →
    (i = .handshake → s.txAccept = true) →
    ∃ u, exec i { s.afterChoice with rxFifo := rest } = .next u ∧ step s = .next { u with mlPhase := .poll }

/-- The word placed by `withFetchWord` is the frame the next step runs (how a frame is placed is the model's choice, log 11). -/
def Obligations.FetchedWordRunsNext : Prop :=
  ∀ (s : State) (w : Nat) (i : Instr), s.refusal = none → decodeTableWord 16 w = some i →
    ∃ u, exec i { s with mlPhase := .rx, txAccept := (s.withFetchWord 16 w).txAccept } = .next u ∧
      step (s.withFetchWord 16 w) = .next { u with mlPhase := .poll }

/-- R209, R210 and R94: an unknown opcode, an empty packet and a short packet are consumed with no effect. -/
def Obligations.BadPacketsConsumedWithoutEffect : Prop :=
  ∀ (s : State) (pkt : Packet) (rest : List Packet), s.refusal = none → s.mainNext .rx → s.rxFifo = pkt :: rest →
    (pkt = [] ∨ (∃ b more, pkt = b :: more ∧ (0x08 ≤ b.toNat ∧ b.toNat ≤ 0x68 ∨ 0x6A ≤ b.toNat)) ∨
      (∃ b, pkt = [b] ∧ b ∈ [0x01, 0x02, 0x03, 0x05, 0x07])) →
    step s = .next { s.afterChoice with rxFifo := rest, mlPhase := .poll }

/-- An RX step that finds no packet only moves on to POLL. -/
def Obligations.EmptyFifoMovesToPoll : Prop :=
  ∀ s : State, s.refusal = none → s.mainNext .rx → s.rxFifo = [] → step s = .next { s.afterChoice with mlPhase := .poll }

/-- R186, R188 and R201: the DRAIN step sends the 64 bytes of the block the writer is not in when at least 65 are pending and the host
accepts, holds while it does not, and otherwise only moves on. -/
def Obligations.DrainSendsOneFullBlock : Prop :=
  ∀ s : State, s.refusal = none → s.mainNext .drain →
    (s.qPend.toNat ≤ 64 → step s = .next { s.afterChoice with mlPhase := .rx }) ∧
    (64 < s.qPend.toNat → s.txAccept = false → step s = .next s.afterChoice) ∧
    (64 < s.qPend.toNat → s.txAccept = true → ∃ block : Packet,
      step s = .next { s.afterChoice with
        txLog := s.txLog ++ [block], qPend := s.qPend - 64, mlPhase := .rx } ∧
      block.length = 64 ∧
      ∀ i, i < 64 → block[i]? = some (Memory.read s.qbuf ((if 64 ≤ s.qWr.toNat then 0 else 64) + i)))

/-- R124, its first line: a poll whose wake condition is false changes nothing. -/
def Obligations.PollWithoutWakeDoesNothing : Prop :=
  ∀ s : State, s.refusal = none → s.mainNext .poll → (s.opState = .idle ∨ s.armed = false ∨ s.due = false) →
    step s = .next { s.afterChoice with mlPhase := .drain }

/-- R125, the STEP_PULSE_LOW wake: the pulse completes and is recorded; track 0, the target reached, or the next pulse. -/
def Obligations.PulseWakeMovesOneCylinder : Prop :=
  ∀ s : State, s.refusal = none → s.mainNext .poll → s.opState = .stepPulseLow → s.armed = true → s.due = true →
    let moved : Byte := if s.dir = .inward then s.curCyl + 1 else s.curCyl - 1
    let base : State := { s.afterChoice with mlPhase := .drain, pulses := s.pulses ++ [⟨s.dir, s.tick⟩] }
    let settle := (s.tick + s.params.settleDelay) % 2 ^ s.params.tickW
    (s.tgtCyl = 0 ∧ s.trk0 = true →
      step s = .next { base with stepN := true, curCyl := 0, opState := .stepSettle, sched := settle }) ∧
    (¬(s.tgtCyl = 0 ∧ s.trk0 = true) → moved = s.tgtCyl →
      step s = .next { base with stepN := true, curCyl := moved, opState := .stepSettle, sched := settle }) ∧
    (¬(s.tgtCyl = 0 ∧ s.trk0 = true) → moved ≠ s.tgtCyl →
      step s = .next { base with
        stepN := false, curCyl := moved, sched := (s.tick + s.params.stepPeriod) % 2 ^ s.params.tickW })

/-- R126 and R127, and the effect of R128's wake: the settle wake restores the direction and answers DONE, the spin-up wake answers DONE, the read timeout answers
INDEX_TIMEOUT and disables the index interrupt; each ends the operation. -/
def Obligations.FinalWakesAnswerAndEnd : Prop :=
  ∀ s : State, s.refusal = none → s.mainNext .poll → s.armed = true → s.due = true →
    let base : State := { s.afterChoice with mlPhase := .drain, armed := false, opState := .idle }
    (s.opState = .stepSettle → ∃ t, step s = .next t ∧ PushedOnto 0xC1 { base with dir := .outward } t) ∧
    (s.opState = .spinningUp → ∃ t, step s = .next t ∧ PushedOnto 0xC1 base t) ∧
    (s.opState = .reading → ∃ t, step s = .next t ∧ PushedOnto 0xC8 { base with idxEn := false } t)

/-! ### The other agents -/

/-- R100 and R184: TICK advances the counter modulo 2^TICK_W, then an overflow found set is cleared and one OVERFLOW byte is queued, which
never sets the flag again. -/
def Obligations.TickAdvancesAndSignalsOverflow : Prop :=
  ∀ s : State, s.refusal = none → s.nextEvent = .tick →
    let ticked : State := { s.afterChoice with tick := (s.tick + 1) % 2 ^ s.params.tickW }
    (s.qOvf = false → step s = .next ticked) ∧
    (s.qOvf = true → ∃ t, step s = .next t ∧
      (∀ a, Memory.read t.qbuf a = if a = s.qWr.toNat then 0xC2 else Memory.read s.qbuf a) ∧
      t = { ticked with
        qOvf := false, qbuf := t.qbuf, qWr := s.qWr + 1
        qPend := if s.qPend.toNat < 128 then s.qPend + 1 else s.qPend })

/-- R169, and R164 for a rise in falling-only mode: an edge that does not qualify changes the line level and nothing else. -/
def Obligations.UnqualifiedEdgesOnlyMoveLine : Prop :=
  ∀ s : State, s.refusal = none →
    (s.nextEvent = .idxFall → s.idxLine = true → s.idxEn = false → step s = .next { s.afterChoice with idxLine := false }) ∧
    (s.nextEvent = .idxRise → s.idxLine = false → (s.idxEn = false ∨ s.idxMode = .falling) →
      step s = .next { s.afterChoice with idxLine := true })

/-- The capture reaction (42_index_capture.md section 3): an on-edge counts and answers INDEX_ON, and the first one also sets both-edge mode and
disarms the timeout; an off-edge answers INDEX_OFF and, once the count exceeds the target, ends the session with DONE. That the ending off-edge
leaves `sched` is the model's choice (log 6): R165's pseudocode writes no `sched` there, R54's table says that it clears it. -/
def Obligations.CaptureCountsAndEndsSession : Prop :=
  ∀ s : State, s.refusal = none → s.captureNext →
    let base : State := { s.afterChoice with idxLine := !s.idxLine, idxLatch := !s.idxLatch }
    (s.idxLatch = false → ∃ t, step s = .next t ∧ PushedOnto 0xC3 { base with
      revCount := (s.revCount + 1) % 2 ^ s.params.revW
      idxMode := .both
      armed := if s.idxMode = .falling then false else s.armed } t) ∧
    (s.idxLatch = true → s.revCount ≤ s.revTarget.toNat → ∃ t, step s = .next t ∧ PushedOnto 0xC4 base t) ∧
    (s.idxLatch = true → s.revTarget.toNat < s.revCount → ∃ u t, step s = .next t ∧ PushedOnto 0xC4 base u ∧
      PushedOnto 0xC1 { u with opState := .idle, armed := false, idxEn := false } t)

/-- The moves of HOST and SENSORS: a packet of at most 64 bytes joins the tail of `rx_fifo`; accepting and the three sensor inputs take the
value given. -/
def Obligations.HostAndSensorMovesSetInputs : Prop :=
  ∀ s : State, s.refusal = none →
    (∀ pkt, s.nextEvent = .hostSend pkt → pkt.length ≤ 64 →
      step s = .next { s.afterChoice with rxFifo := s.rxFifo ++ [pkt] }) ∧
    (∀ v, s.nextEvent = .hostAccept v → step s = .next { s.afterChoice with txAccept := v }) ∧
    (∀ v, s.nextEvent = .setTrk0 v → step s = .next { s.afterChoice with trk0 := v }) ∧
    (∀ v, s.nextEvent = .setDisk v → step s = .next { s.afterChoice with diskPresent := v }) ∧
    (∀ v, s.nextEvent = .setWpt v → step s = .next { s.afterChoice with wpt := v })

/-- The model's choice (log 3): an event that is no move of its agent changes nothing. It is a change of the index line to the level the line
already has, and a packet of more than 64 bytes. -/
def Obligations.ImpossibleMovesChangeNothing : Prop :=
  ∀ s : State, s.refusal = none →
    ((s.nextEvent = .idxFall ∧ s.idxLine = false) ∨ (s.nextEvent = .idxRise ∧ s.idxLine = true) ∨
      (∃ pkt, s.nextEvent = .hostSend pkt ∧ 64 < pkt.length)) →
    step s = .next s.afterChoice

/-! ### The whole machine -/

/-- The model refuses exactly a configuration that breaks R8 or R106 and a state that holds STEP_PULSE_HIGH; from every other state the
step answers a next state: no frame, event or parameter stops the block (60_exceptions.md section 1). -/
def Obligations.OnlyBadStartStatesStop : Prop :=
  (∀ s : State, (∃ r, step s = .refused r) ↔ Params.valid s.params = false ∨ s.opState = .stepPulseHigh) ∧
  (∀ s : State, s.refusal = none → ∃ t, step s = .next t) ∧
  (∀ p : Params, Params.valid p = true ↔ 2 ≤ p.tickW ∧ 1 ≤ p.lateBound ∧ p.lateBound ≤ 2 ^ (p.tickW - 1) ∧
    ∀ d ∈ [p.stepFirstDelay, p.stepPeriod, p.settleDelay, p.spinupDelay, p.readTimeout],
      1 ≤ d ∧ d ≤ 2 ^ p.tickW - p.lateBound)

/-- From every state that meets the invariant, not only runs from reset, a step gives a state that meets it: among its parts R24 (a) to (d),
the ranges of R21, R22, R29, R35 and R40, the laws of R170 and R172, the packet kinds of R88, and the canonical form of the queue storage. -/
def Obligations.StepKeepsInvariant : Prop :=
  ∀ s t : State, s.Inv → step s = .next t → t.Inv

/-- Every change of `op_state` is one of the edges of the transition summary (41_drive_state_machine.md section 3), taken under that edge's
condition. -/
def Obligations.OpStateMovesOnlyAlongEdges : Prop :=
  ∀ s t : State, s.Inv → step s = .next t → OpEdge s t

/-- The table of writers (10_state.md section 10), every row of it: no step but those it names changes a field. Also, `q_ovf` is set only by a
push into a full queue and cleared only by TICK. Two clauses are the model's: `params` never changes (log 1), and `sched` is not written by an
index edge (log 6: the table says that the terminating off-edge clears it; R165's pseudocode and vector P2 do not). -/
def Obligations.FieldsHaveOnlyTheirWriters : Prop :=
  ∀ s t : State, step s = .next t →
    t.params = s.params ∧
    (s.nextEvent ≠ .tick → t.tick = s.tick) ∧
    ((∀ p, ¬s.rxNext (.selectDrive p)) → t.driveSel = s.driveSel) ∧
    ((∀ p, ¬s.rxNext (.head p)) → t.head = s.head) ∧
    ((∀ v, ¬s.rxNext (.motor v)) → t.motorOn1 = s.motorOn1 ∧ t.motorOn2 = s.motorOn2) ∧
    ((∀ c, ¬s.rxNext (.cylinder c)) → t.tgtCyl = s.tgtCyl) ∧
    ((∀ c, ¬s.rxNext (.cylinder c)) → ¬(s.wakeNext ∧ s.opState = .stepPulseLow) →
      t.curCyl = s.curCyl ∧ t.stepN = s.stepN ∧ t.pulses = s.pulses) ∧
    ((∀ c, ¬s.rxNext (.cylinder c)) → ¬(s.wakeNext ∧ s.opState = .stepSettle) → t.dir = s.dir) ∧
    (¬s.armingNext → ¬s.wakeNext → t.sched = s.sched) ∧
    (¬s.armingNext → ¬s.wakeNext → ¬s.captureNext → t.armed = s.armed ∧ t.opState = s.opState ∧ t.idxEn = s.idxEn) ∧
    (¬s.rxNext .read → (∀ n, ¬s.rxNext (.readMulti n)) → t.revTarget = s.revTarget ∧
      (¬s.captureNext → t.idxMode = s.idxMode ∧ t.idxLatch = s.idxLatch ∧ t.revCount = s.revCount)) ∧
    (¬s.edgeNext → t.idxLine = s.idxLine) ∧
    (¬s.pushNext → t.qbuf = s.qbuf ∧ t.qWr = s.qWr ∧ (¬s.mainNext .drain → t.qPend = s.qPend)) ∧
    (¬s.mainNext .drain → s.qPend.toNat ≤ 128 → s.qPend.toNat ≤ t.qPend.toNat) ∧
    (s.qOvf = false → t.qOvf = true → s.pushNext ∧ (s.qPend.toNat = 128 ∨ s.qPend.toNat = 127 ∧ s.captureNext)) ∧
    (s.qOvf = true → t.qOvf = false → s.nextEvent = .tick) ∧
    (¬s.mainNext .rx → (∀ pkt, s.nextEvent ≠ .hostSend pkt) → t.rxFifo = s.rxFifo) ∧
    (s.nextEvent ≠ .main → t.mlPhase = s.mlPhase ∧ t.txLog = s.txLog)

/-- Frames are consumed one at a time, in order: a step leaves `rx_fifo`, or an RX step takes its head, or HOST adds at its tail. -/
def Obligations.FramesConsumedInOrder : Prop :=
  ∀ s t : State, step s = .next t →
    t.rxFifo = s.rxFifo ∨ (s.mainNext .rx ∧ ∃ pkt, s.rxFifo = pkt :: t.rxFifo) ∨
      ∃ pkt, s.nextEvent = .hostSend pkt ∧ t.rxFifo = s.rxFifo ++ [pkt]

/-- What a step can put into the queue: only the response bytes of R86 but for INVALID_CMD and DISK_EJECTED; at most one byte by MAIN or TICK and
two by an index edge; the cursor moves by as many, and every other byte of the storage stays. -/
def Obligations.StepPushesFewResponseBytes : Prop :=
  ∀ s t : State, step s = .next t → ∃ new : List Byte,
    t.qWr = s.qWr + BitVec.ofNat 7 new.length ∧ new.length ≤ 2 ∧ (¬s.captureNext → new.length ≤ 1) ∧
    (∀ b ∈ new, b ∈ pushedCodes) ∧
    (∀ i (h : i < new.length), Memory.read t.qbuf ((s.qWr.toNat + i) % 128) = new[i]) ∧
    (∀ a, (∀ i, i < new.length → a ≠ (s.qWr.toNat + i) % 128) → Memory.read t.qbuf a = Memory.read s.qbuf a)

/-- Every packet a step sends is a 64-byte block, sent by DRAIN, or the handshake reply, sent by the RX step of a HANDSHAKE frame, and the host
accepts at that step (30_encoding.md section 4). -/
def Obligations.OnlyBlocksAndHandshakesAreSent : Prop :=
  ∀ s t : State, step s = .next t → t.txLog ≠ s.txLog →
    s.txAccept = true ∧ ∃ p, t.txLog = s.txLog ++ [p] ∧
      ((s.mainNext .drain ∧ 64 < s.qPend.toNat ∧ p.length = 64) ∨ (s.rxNext .handshake ∧ p = handshakePacket))

/-- The block never reads the write-protect input: two states that differ only in it step to states that differ at most in it. -/
def Obligations.WriteProtectNeverRead : Prop :=
  ∀ (s t : State) (v : Bool), step s = .next t →
    ∃ w, step { s with wpt := v } = .next { t with wpt := w }

/-- Only CHECK_DISK reads the disk-present input, and only CYLINDER 0 and the pulse wakes of a seek to 0 read the track-0 input
(70_reset_and_hazards.md section 3). -/
def Obligations.SensorsReadOnlyWhereSampled : Prop :=
  ∀ (s t : State) (v : Bool), step s = .next t →
    (¬s.rxNext .checkDisk → (∀ x, s.nextEvent ≠ .setDisk x) →
      step { s with diskPresent := v } = .next { t with diskPresent := v }) ∧
    (¬s.rxNext (.cylinder 0) → ¬(s.wakeNext ∧ s.opState = .stepPulseLow ∧ s.tgtCyl = 0) → (∀ x, s.nextEvent ≠ .setTrk0 x) →
      step { s with trk0 := v } = .next { t with trk0 := v })

/-- A tick and an index edge may come in either order; the two orders differ in the queue alone (60_exceptions.md section 3), and not even
there when no overflow is signalled or caused. -/
def Obligations.TickAndEdgeOrdersDifferOnlyInQueue : Prop :=
  ∀ (s : State) (e : Event), e = .idxFall ∨ e = .idxRise → s.refusal = none →
    ∃ t u : State, runScript [.tick, e] s = .next t ∧ runScript [e, .tick] s = .next u ∧
      t = { u with qbuf := t.qbuf, qWr := t.qWr, qPend := t.qPend, qOvf := t.qOvf } ∧
      (s.qOvf = false → s.qPend.toNat < 127 → t = u)

/-- From a quiescent state, every run of an agenda (log 2) in which the host appends no packet stays quiescent and adds nothing to the observation
(44_command_dispatch.md section 4). -/
def Obligations.QuiescenceIsSilent : Prop :=
  ∀ (s : State) (k : Nat), s.refusal = none → s.Quiescent → k ≤ s.agenda.length → (∀ pkt, Event.hostSend pkt ∉ s.agenda) →
    ∃ t, Host.Core.run Sys2Proof.core k s = .next t ∧ t.Quiescent ∧ t.observe = s.observe

/-- While the queue does not fill, it is a FIFO: whatever the step, from 0 to 127 unsent bytes, if it does not fill the queue then the bytes sent
in blocks followed by the unsent bytes are those before, with the step's new response bytes at the end (43_event_queue.md section 4). -/
def Obligations.QueueIsFifoUntilFull : Prop :=
  State.reset.Unsent [] ∧
  ∀ (s t : State) (l : List Byte), s.Unsent l → step s = .next t → t.qPend.toNat < 128 →
    ∃ l' new : List Byte, t.Unsent l' ∧ t.bytesSent ++ l' = s.bytesSent ++ l ++ new ∧
      new.length ≤ 2 ∧ ∀ b ∈ new, b ∈ pushedCodes

/-- No byte that `qbuf` held at reset is ever observed, even after the queue has filled: two runs from resets that differ only in it keep
differing only in it. -/
def Obligations.ResetStorageNeverObserved : Prop :=
  ∀ (p : Params) (line acc t0 disk wpt : Bool) (m n : Memory) (script : List Event) (k : Nat) (t : State),
    Host.Core.run Sys2Proof.core k { State.resetWith p line m acc t0 disk wpt with agenda := script } = .next t →
    ∃ u, Host.Core.run Sys2Proof.core k { State.resetWith p line n acc t0 disk wpt with agenda := script } = .next u ∧
      t = { u with qbuf := t.qbuf } ∧ t.observe = u.observe

/-! ### The derived laws of operations -/

/-- A seek serviced on time: from any believed position it takes exactly the pulses between, one every STEP_PERIOD ticks, then the settle
delay, and it ends at the target with one DONE and the direction restored. It covers every legal target, from the sentinel and from a wrong zero
too (41_drive_state_machine.md section 3, 70_reset_and_hazards.md section 4). -/
def Obligations.SeekOnTimeTakesTheDistance : Prop :=
  ∀ (n : Byte) (s : State), n.toNat ≤ 79 → (n = 0 → s.trk0 = false) → (n ≠ 0 → n ≠ s.curCyl) →
    s.refusal = none → s.mlPhase = .drain → s.rxFifo = [] → s.qPend.toNat ≤ 64 → s.qOvf = false →
    s.tick < 2 ^ s.params.tickW →
    let k := pulsesNeeded n s.curCyl
    let d : Dir := if s.curCyl.toNat < n.toNat then .inward else .outward
    let ticks := s.params.stepFirstDelay + (k - 1) * s.params.stepPeriod + s.params.settleDelay
    ∃ u t : State, exec (.cylinder n) s = .next u ∧ runScript (wait ticks) u = .next t ∧
      PushedOnto 0xC1 { u with
        agenda := [], tick := (s.tick + ticks) % 2 ^ s.params.tickW, sched := (s.tick + ticks) % 2 ^ s.params.tickW
        armed := false, opState := .idle, curCyl := n, dir := .outward, stepN := true
        pulses := s.pulses ++ (List.range k).map fun i =>
          { dir := d, tick := (s.tick + s.params.stepFirstDelay + i * s.params.stepPeriod) % 2 ^ s.params.tickW } } t

/-- A seek to 0 from a known position, whatever the sensor reports and whatever else happens but an arming command: every wake is one pulse,
there are at most as many as cylinders, and only cylinder 0 is ever settled at or left idle at. -/
def Obligations.SeekToZeroEndsAtZero : Prop :=
  (∀ s : State, 1 ≤ s.curCyl.toNat → s.curCyl.toNat ≤ 79 →
    ∃ u, exec (.cylinder 0) s = .next u ∧ (s.trk0 = false → SeekZeroProgress s.curCyl.toNat s.pulses.length u) ∧
      (s.trk0 = true → u.opState = .idle ∧ u.curCyl = 0 ∧ u.pulses = s.pulses)) ∧
  (∀ (m p0 : Nat) (s t : State), s.Inv → SeekZeroProgress m p0 s → ¬s.armingNext → step s = .next t →
    SeekZeroProgress m p0 t ∧
    (s.wakeNext → s.opState = .stepPulseLow → t.pulses.length = s.pulses.length + 1) ∧
    (s.wakeNext → s.opState = .stepSettle → t.opState = .idle))

/-- Spin-up and the read timeout, serviced on time: no answer before the delay has passed, and at it DONE, or INDEX_TIMEOUT with the index
interrupt disabled. -/
def Obligations.SpinUpAndTimeoutLastTheirDelay : Prop :=
  ∀ (s : State), s.refusal = none → s.mlPhase = .drain → s.rxFifo = [] → s.qPend.toNat ≤ 64 → s.qOvf = false →
    s.tick < 2 ^ s.params.tickW →
    (∀ v : Byte, v ≠ 0 → ∃ u, exec (.motor v) s = .next u ∧
      (∀ j, j < s.params.spinupDelay →
        runScript (wait j) u = .next { u with agenda := [], tick := (s.tick + j) % 2 ^ s.params.tickW }) ∧
      ∃ t, runScript (wait s.params.spinupDelay) u = .next t ∧
        PushedOnto 0xC1 { u with agenda := [], tick := u.sched, armed := false, opState := .idle } t) ∧
    (∀ n : Byte, ∃ u, exec (.readMulti n) s = .next u ∧
      (∀ j, j < s.params.readTimeout →
        runScript (wait j) u = .next { u with agenda := [], tick := (s.tick + j) % 2 ^ s.params.tickW }) ∧
      ∃ t, runScript (wait s.params.readTimeout) u = .next t ∧
        PushedOnto 0xC8 { u with agenda := [], tick := u.sched, armed := false, opState := .idle, idxEn := false } t)

/-- A read session with target `n` ends at exactly the (n+1)-th off-edge, never before, with INDEX_ON, INDEX_OFF pushed n+1 times and then one
DONE; it needs a counter that can hold n+1 (42_index_capture.md section 4). That the end leaves `sched` is the model's choice (log 6). -/
def Obligations.ReadSessionLastsTargetPlusOne : Prop :=
  ∀ (n : Byte) (s : State), s.refusal = none → s.idxLine = true → n.toNat + 1 < 2 ^ s.params.revW →
    ∃ u, exec (.readMulti n) s = .next u ∧
      (∀ k, 1 ≤ k → k ≤ n.toNat → runScript (indexPulses k) u =
        .next { pushAll (List.replicate k [0xC3, 0xC4]).flatten u with
          agenda := [], armed := false, idxMode := .both, revCount := k }) ∧
      runScript (indexPulses (n.toNat + 1)) u =
        .next { pushAll ((List.replicate (n.toNat + 1) [0xC3, 0xC4]).flatten ++ [0xC1]) u with
          agenda := [], opState := .idle, armed := false, idxEn := false, idxMode := .both, revCount := n.toNat + 1 }

/-- MAIN cycles for ever: in a run in which the host accepts at every state and MAIN is weakly fair, every phase step comes again and again,
so every frame delivered is eventually at a step that consumes it. -/
def Obligations.MainCyclesForEver : Prop :=
  ∀ (e : Nat → Event) (r : Nat → State), IsRun e r → MainWeaklyFair e r → (∀ n, (r n).txAccept = true) →
    ∀ (p : MlPhase) (n : Nat), ∃ m, n ≤ m ∧ e m = .main ∧ (r m).mlPhase = p

/-- In a run with a fair TIMER the counter takes every value of its range again and again, so the window of a missed wake comes back
(40_tick_clock.md section 3). -/
def Obligations.TickTakesEveryValueAgain : Prop :=
  ∀ (e : Nat → Event) (r : Nat → State), IsRun e r → TimerFair e → (r 0).tick < 2 ^ (r 0).params.tickW →
    ∀ (n v : Nat), v < 2 ^ (r 0).params.tickW → ∃ m, n ≤ m ∧ (r m).tick = v

/-- While no wake is armed nothing reads `sched` (10_state.md section 9, 42_index_capture.md section 3): two states that differ only in it step to
states that differ at most in it, and not even in it once a wake is armed. So the value that the ending off-edge leaves in `sched` (log 6) is
never observed. -/
def Obligations.DisarmedSchedNeverRead : Prop :=
  ∀ (s t : State) (v : Nat), s.armed = false → step s = .next t →
    ∃ w, step { s with sched := v } = .next { t with sched := w } ∧ (if t.armed then w = t.sched else w = v) ∧
      { t with sched := w }.observe = t.observe
end

