-- ==== Sys2Proof/Laws/Memory.lean ====
section
/-! SUPPORT. The queue storage: a read after a write, the canonical form, and the bytes of a block. -/

namespace Sys2Proof.Machine

@[simp] theorem Memory.read_nil (a : Nat) : Memory.read [] a = Memory.unlisted := rfl

theorem Memory.read_cons (k : Nat) (b : Byte) (m : Memory) (a : Nat) :
    Memory.read ((k, b) :: m) a = if k = a then b else Memory.read m a := rfl

/-- In a canonical storage an index below the listed ones is unlisted. -/
theorem Memory.read_below {m : Memory} {lo a : Nat} (h : Memory.wfFrom m lo = true) (ha : a < lo) :
    Memory.read m a = Memory.unlisted := by
  induction m generalizing lo with
  | nil => rfl
  | cons c m ih =>
    obtain ⟨k, b⟩ := c
    simp only [Memory.wfFrom, Bool.and_eq_true, decide_eq_true_eq] at h
    rw [Memory.read_cons, if_neg (by omega)]
    exact ih h.2 (by omega)

/-- Reading after writing, for a byte that is listed: no assumption on the storage. -/
theorem Memory.read_write_of_ne {v : Byte} (hv : v ≠ Memory.unlisted) (m : Memory) (a c : Nat) :
    Memory.read (Memory.write m a v) c = if c = a then v else Memory.read m c := by
  induction m with
  | nil => simp [Memory.write, hv, Memory.read_cons, eq_comm (a := a)]
  | cons e m ih =>
    obtain ⟨k, b⟩ := e
    simp only [Memory.write, if_neg hv]
    split
    · simp only [Memory.read_cons, eq_comm]
    · split
      · subst k; simp only [Memory.read_cons, eq_comm]; split <;> rfl
      · simp only [Memory.read_cons, ih]
        by_cases h1 : k = c <;> by_cases h2 : c = a <;> simp_all

/-- Reading after writing in a canonical storage. -/
theorem Memory.read_write {m : Memory} {lo : Nat} (h : Memory.wfFrom m lo = true) (a c : Nat) (v : Byte) :
    Memory.read (Memory.write m a v) c = if c = a then v else Memory.read m c := by
  by_cases hv : v = Memory.unlisted
  · subst hv
    induction m generalizing lo with
    | nil => simp [Memory.write]
    | cons e m ih =>
      obtain ⟨k, b⟩ := e
      simp only [Memory.wfFrom, Bool.and_eq_true, decide_eq_true_eq] at h
      simp only [Memory.write, if_true]
      split
      · rename_i hk
        split
        · subst c
          rw [Memory.read_cons, if_neg (by omega)]
          exact Memory.read_below h.2 (by omega)
        · rfl
      · split
        · subst k
          split
          · subst c; exact Memory.read_below h.2 (by omega)
          · rw [Memory.read_cons, if_neg (by omega)]
        · simp only [Memory.read_cons, ih h.2]
          by_cases h1 : k = c <;> by_cases h2 : c = a <;> simp_all
  · exact Memory.read_write_of_ne hv m a c

theorem Memory.wfFrom_mono {m : Memory} {lo lo' : Nat} (h : Memory.wfFrom m lo = true) (hl : lo' ≤ lo) :
    Memory.wfFrom m lo' = true := by
  cases m with
  | nil => rfl
  | cons e m =>
    obtain ⟨k, b⟩ := e
    simp only [Memory.wfFrom, Bool.and_eq_true, decide_eq_true_eq] at h ⊢
    exact ⟨⟨⟨by omega, h.1.1.2⟩, h.1.2⟩, h.2⟩

theorem Memory.wfFrom_write {m : Memory} {lo a : Nat} (h : Memory.wfFrom m lo = true) (h1 : lo ≤ a) (h2 : a < Config.qCap)
    (v : Byte) : Memory.wfFrom (Memory.write m a v) lo = true := by
  induction m generalizing lo with
  | nil => by_cases hv : v = Memory.unlisted <;> simp [Memory.write, Memory.wfFrom, hv, h1, h2]
  | cons e m ih =>
    obtain ⟨k, b⟩ := e
    have h' := h
    simp only [Memory.wfFrom, Bool.and_eq_true, decide_eq_true_eq] at h'
    simp only [Memory.write]
    split
    · split
      · exact h
      · rename_i hk hv
        simp only [Memory.wfFrom, Bool.and_eq_true, decide_eq_true_eq]
        exact ⟨⟨⟨h1, h2⟩, hv⟩, ⟨⟨by omega, h'.1.1.2⟩, h'.1.2⟩, h'.2⟩
    · split
      · subst k
        split
        · exact Memory.wfFrom_mono h'.2 (by omega)
        · rename_i hv
          simp only [Memory.wfFrom, Bool.and_eq_true, decide_eq_true_eq]
          exact ⟨⟨⟨h1, h2⟩, hv⟩, h'.2⟩
      · simp only [Memory.wfFrom, Bool.and_eq_true, decide_eq_true_eq]
        exact ⟨h'.1, ih h'.2 (by omega)⟩

/-- A write at an index of the storage keeps the canonical form. -/
theorem Memory.wf_write {m : Memory} (h : Memory.wf m = true) {a : Nat} (ha : a < Config.qCap) (v : Byte) :
    Memory.wf (Memory.write m a v) = true := Memory.wfFrom_write h (Nat.zero_le _) ha v

/-- `push` and `marker_push` keep the canonical form. -/
theorem State.push_wf (b : Byte) {s : State} (h : Memory.wf s.qbuf = true) : Memory.wf (s.push b).qbuf = true :=
  Memory.wf_write h (by simp only [Config.qCap]; omega) b

theorem State.markerPush_wf (b : Byte) {s : State} (h : Memory.wf s.qbuf = true) : Memory.wf (s.markerPush b).qbuf = true :=
  Memory.wf_write h (by simp only [Config.qCap]; omega) b

/-- `push` keeps the count in range and never lowers it. -/
theorem State.push_pend (b : Byte) {s : State} (h : s.qPend.toNat ≤ 128) :
    s.qPend.toNat ≤ (s.push b).qPend.toNat ∧ (s.push b).qPend.toNat ≤ 128 := by
  simp only [State.push, State.queueFull, Config.qCap, beq_iff_eq]
  split
  · exact ⟨le_refl _, h⟩
  · rw [BitVec.toNat_add, show BitVec.toNat (1 : BitVec 8) = 1 from rfl]; omega

@[simp] theorem Memory.readBlock_length (m : Memory) (a n : Nat) : (Memory.readBlock m a n).length = n := by
  simp [Memory.readBlock]

theorem Memory.readBlock_getElem? (m : Memory) (a n i : Nat) (h : i < n) :
    (Memory.readBlock m a n)[i]? = some (Memory.read m (a + i)) := by
  simp [Memory.readBlock, h]

/-- Every named response byte is listed when written. -/
theorem Response.code_ne_unlisted (r : Response) : r.code ≠ Memory.unlisted := by cases r <;> decide

end Sys2Proof.Machine
end

