-- ==== Sys2Proof/Laws/State.lean ====
section
/-! SUPPORT. For every shared update of the state, what each field is after it: one lemma per field, true by definition. -/

namespace Sys2Proof.Machine

/-! ### push -/

@[simp] theorem State.push_params (b : Byte) (s : State) : (s.push b).params = s.params := rfl
@[simp] theorem State.push_tick (b : Byte) (s : State) : (s.push b).tick = s.tick := rfl
@[simp] theorem State.push_sched (b : Byte) (s : State) : (s.push b).sched = s.sched := rfl
@[simp] theorem State.push_armed (b : Byte) (s : State) : (s.push b).armed = s.armed := rfl
@[simp] theorem State.push_opState (b : Byte) (s : State) : (s.push b).opState = s.opState := rfl
@[simp] theorem State.push_driveSel (b : Byte) (s : State) : (s.push b).driveSel = s.driveSel := rfl
@[simp] theorem State.push_head (b : Byte) (s : State) : (s.push b).head = s.head := rfl
@[simp] theorem State.push_motorOn1 (b : Byte) (s : State) : (s.push b).motorOn1 = s.motorOn1 := rfl
@[simp] theorem State.push_motorOn2 (b : Byte) (s : State) : (s.push b).motorOn2 = s.motorOn2 := rfl
@[simp] theorem State.push_curCyl (b : Byte) (s : State) : (s.push b).curCyl = s.curCyl := rfl
@[simp] theorem State.push_tgtCyl (b : Byte) (s : State) : (s.push b).tgtCyl = s.tgtCyl := rfl
@[simp] theorem State.push_dir (b : Byte) (s : State) : (s.push b).dir = s.dir := rfl
@[simp] theorem State.push_stepN (b : Byte) (s : State) : (s.push b).stepN = s.stepN := rfl
@[simp] theorem State.push_idxEn (b : Byte) (s : State) : (s.push b).idxEn = s.idxEn := rfl
@[simp] theorem State.push_idxMode (b : Byte) (s : State) : (s.push b).idxMode = s.idxMode := rfl
@[simp] theorem State.push_idxLatch (b : Byte) (s : State) : (s.push b).idxLatch = s.idxLatch := rfl
@[simp] theorem State.push_revCount (b : Byte) (s : State) : (s.push b).revCount = s.revCount := rfl
@[simp] theorem State.push_revTarget (b : Byte) (s : State) : (s.push b).revTarget = s.revTarget := rfl
@[simp] theorem State.push_idxLine (b : Byte) (s : State) : (s.push b).idxLine = s.idxLine := rfl
@[simp] theorem State.push_qbuf (b : Byte) (s : State) : (s.push b).qbuf = Memory.write s.qbuf s.qWr.toNat b := rfl
@[simp] theorem State.push_qWr (b : Byte) (s : State) : (s.push b).qWr = s.qWr + 1 := rfl
@[simp] theorem State.push_qPend (b : Byte) (s : State) : (s.push b).qPend = if s.queueFull then s.qPend else s.qPend + 1 := rfl
@[simp] theorem State.push_qOvf (b : Byte) (s : State) : (s.push b).qOvf = if s.queueFull then true else s.qOvf := rfl
@[simp] theorem State.push_mlPhase (b : Byte) (s : State) : (s.push b).mlPhase = s.mlPhase := rfl
@[simp] theorem State.push_rxFifo (b : Byte) (s : State) : (s.push b).rxFifo = s.rxFifo := rfl
@[simp] theorem State.push_txAccept (b : Byte) (s : State) : (s.push b).txAccept = s.txAccept := rfl
@[simp] theorem State.push_trk0 (b : Byte) (s : State) : (s.push b).trk0 = s.trk0 := rfl
@[simp] theorem State.push_diskPresent (b : Byte) (s : State) : (s.push b).diskPresent = s.diskPresent := rfl
@[simp] theorem State.push_wpt (b : Byte) (s : State) : (s.push b).wpt = s.wpt := rfl
@[simp] theorem State.push_txLog (b : Byte) (s : State) : (s.push b).txLog = s.txLog := rfl
@[simp] theorem State.push_pulses (b : Byte) (s : State) : (s.push b).pulses = s.pulses := rfl
@[simp] theorem State.push_agenda (b : Byte) (s : State) : (s.push b).agenda = s.agenda := rfl
@[simp] theorem State.push_draws (b : Byte) (s : State) : (s.push b).draws = s.draws := rfl

/-! ### markerPush -/

@[simp] theorem State.markerPush_params (b : Byte) (s : State) : (s.markerPush b).params = s.params := rfl
@[simp] theorem State.markerPush_tick (b : Byte) (s : State) : (s.markerPush b).tick = s.tick := rfl
@[simp] theorem State.markerPush_sched (b : Byte) (s : State) : (s.markerPush b).sched = s.sched := rfl
@[simp] theorem State.markerPush_armed (b : Byte) (s : State) : (s.markerPush b).armed = s.armed := rfl
@[simp] theorem State.markerPush_opState (b : Byte) (s : State) : (s.markerPush b).opState = s.opState := rfl
@[simp] theorem State.markerPush_driveSel (b : Byte) (s : State) : (s.markerPush b).driveSel = s.driveSel := rfl
@[simp] theorem State.markerPush_head (b : Byte) (s : State) : (s.markerPush b).head = s.head := rfl
@[simp] theorem State.markerPush_motorOn1 (b : Byte) (s : State) : (s.markerPush b).motorOn1 = s.motorOn1 := rfl
@[simp] theorem State.markerPush_motorOn2 (b : Byte) (s : State) : (s.markerPush b).motorOn2 = s.motorOn2 := rfl
@[simp] theorem State.markerPush_curCyl (b : Byte) (s : State) : (s.markerPush b).curCyl = s.curCyl := rfl
@[simp] theorem State.markerPush_tgtCyl (b : Byte) (s : State) : (s.markerPush b).tgtCyl = s.tgtCyl := rfl
@[simp] theorem State.markerPush_dir (b : Byte) (s : State) : (s.markerPush b).dir = s.dir := rfl
@[simp] theorem State.markerPush_stepN (b : Byte) (s : State) : (s.markerPush b).stepN = s.stepN := rfl
@[simp] theorem State.markerPush_idxEn (b : Byte) (s : State) : (s.markerPush b).idxEn = s.idxEn := rfl
@[simp] theorem State.markerPush_idxMode (b : Byte) (s : State) : (s.markerPush b).idxMode = s.idxMode := rfl
@[simp] theorem State.markerPush_idxLatch (b : Byte) (s : State) : (s.markerPush b).idxLatch = s.idxLatch := rfl
@[simp] theorem State.markerPush_revCount (b : Byte) (s : State) : (s.markerPush b).revCount = s.revCount := rfl
@[simp] theorem State.markerPush_revTarget (b : Byte) (s : State) : (s.markerPush b).revTarget = s.revTarget := rfl
@[simp] theorem State.markerPush_idxLine (b : Byte) (s : State) : (s.markerPush b).idxLine = s.idxLine := rfl
@[simp] theorem State.markerPush_qbuf (b : Byte) (s : State) : (s.markerPush b).qbuf = Memory.write s.qbuf s.qWr.toNat b := rfl
@[simp] theorem State.markerPush_qWr (b : Byte) (s : State) : (s.markerPush b).qWr = s.qWr + 1 := rfl
@[simp] theorem State.markerPush_qPend (b : Byte) (s : State) : (s.markerPush b).qPend = if s.qPend.toNat < Config.qCap then s.qPend + 1 else s.qPend := rfl
@[simp] theorem State.markerPush_qOvf (b : Byte) (s : State) : (s.markerPush b).qOvf = s.qOvf := rfl
@[simp] theorem State.markerPush_mlPhase (b : Byte) (s : State) : (s.markerPush b).mlPhase = s.mlPhase := rfl
@[simp] theorem State.markerPush_rxFifo (b : Byte) (s : State) : (s.markerPush b).rxFifo = s.rxFifo := rfl
@[simp] theorem State.markerPush_txAccept (b : Byte) (s : State) : (s.markerPush b).txAccept = s.txAccept := rfl
@[simp] theorem State.markerPush_trk0 (b : Byte) (s : State) : (s.markerPush b).trk0 = s.trk0 := rfl
@[simp] theorem State.markerPush_diskPresent (b : Byte) (s : State) : (s.markerPush b).diskPresent = s.diskPresent := rfl
@[simp] theorem State.markerPush_wpt (b : Byte) (s : State) : (s.markerPush b).wpt = s.wpt := rfl
@[simp] theorem State.markerPush_txLog (b : Byte) (s : State) : (s.markerPush b).txLog = s.txLog := rfl
@[simp] theorem State.markerPush_pulses (b : Byte) (s : State) : (s.markerPush b).pulses = s.pulses := rfl
@[simp] theorem State.markerPush_agenda (b : Byte) (s : State) : (s.markerPush b).agenda = s.agenda := rfl
@[simp] theorem State.markerPush_draws (b : Byte) (s : State) : (s.markerPush b).draws = s.draws := rfl

/-! ### arm -/

@[simp] theorem State.arm_params (o : OpState) (d : Nat) (s : State) : (s.arm o d).params = s.params := rfl
@[simp] theorem State.arm_tick (o : OpState) (d : Nat) (s : State) : (s.arm o d).tick = s.tick := rfl
@[simp] theorem State.arm_sched (o : OpState) (d : Nat) (s : State) : (s.arm o d).sched = (s.tick + d) % 2 ^ s.params.tickW := rfl
@[simp] theorem State.arm_armed (o : OpState) (d : Nat) (s : State) : (s.arm o d).armed = true := rfl
@[simp] theorem State.arm_opState (o : OpState) (d : Nat) (s : State) : (s.arm o d).opState = o := rfl
@[simp] theorem State.arm_driveSel (o : OpState) (d : Nat) (s : State) : (s.arm o d).driveSel = s.driveSel := rfl
@[simp] theorem State.arm_head (o : OpState) (d : Nat) (s : State) : (s.arm o d).head = s.head := rfl
@[simp] theorem State.arm_motorOn1 (o : OpState) (d : Nat) (s : State) : (s.arm o d).motorOn1 = s.motorOn1 := rfl
@[simp] theorem State.arm_motorOn2 (o : OpState) (d : Nat) (s : State) : (s.arm o d).motorOn2 = s.motorOn2 := rfl
@[simp] theorem State.arm_curCyl (o : OpState) (d : Nat) (s : State) : (s.arm o d).curCyl = s.curCyl := rfl
@[simp] theorem State.arm_tgtCyl (o : OpState) (d : Nat) (s : State) : (s.arm o d).tgtCyl = s.tgtCyl := rfl
@[simp] theorem State.arm_dir (o : OpState) (d : Nat) (s : State) : (s.arm o d).dir = s.dir := rfl
@[simp] theorem State.arm_stepN (o : OpState) (d : Nat) (s : State) : (s.arm o d).stepN = s.stepN := rfl
@[simp] theorem State.arm_idxEn (o : OpState) (d : Nat) (s : State) : (s.arm o d).idxEn = s.idxEn := rfl
@[simp] theorem State.arm_idxMode (o : OpState) (d : Nat) (s : State) : (s.arm o d).idxMode = s.idxMode := rfl
@[simp] theorem State.arm_idxLatch (o : OpState) (d : Nat) (s : State) : (s.arm o d).idxLatch = s.idxLatch := rfl
@[simp] theorem State.arm_revCount (o : OpState) (d : Nat) (s : State) : (s.arm o d).revCount = s.revCount := rfl
@[simp] theorem State.arm_revTarget (o : OpState) (d : Nat) (s : State) : (s.arm o d).revTarget = s.revTarget := rfl
@[simp] theorem State.arm_idxLine (o : OpState) (d : Nat) (s : State) : (s.arm o d).idxLine = s.idxLine := rfl
@[simp] theorem State.arm_qbuf (o : OpState) (d : Nat) (s : State) : (s.arm o d).qbuf = s.qbuf := rfl
@[simp] theorem State.arm_qWr (o : OpState) (d : Nat) (s : State) : (s.arm o d).qWr = s.qWr := rfl
@[simp] theorem State.arm_qPend (o : OpState) (d : Nat) (s : State) : (s.arm o d).qPend = s.qPend := rfl
@[simp] theorem State.arm_qOvf (o : OpState) (d : Nat) (s : State) : (s.arm o d).qOvf = s.qOvf := rfl
@[simp] theorem State.arm_mlPhase (o : OpState) (d : Nat) (s : State) : (s.arm o d).mlPhase = s.mlPhase := rfl
@[simp] theorem State.arm_rxFifo (o : OpState) (d : Nat) (s : State) : (s.arm o d).rxFifo = s.rxFifo := rfl
@[simp] theorem State.arm_txAccept (o : OpState) (d : Nat) (s : State) : (s.arm o d).txAccept = s.txAccept := rfl
@[simp] theorem State.arm_trk0 (o : OpState) (d : Nat) (s : State) : (s.arm o d).trk0 = s.trk0 := rfl
@[simp] theorem State.arm_diskPresent (o : OpState) (d : Nat) (s : State) : (s.arm o d).diskPresent = s.diskPresent := rfl
@[simp] theorem State.arm_wpt (o : OpState) (d : Nat) (s : State) : (s.arm o d).wpt = s.wpt := rfl
@[simp] theorem State.arm_txLog (o : OpState) (d : Nat) (s : State) : (s.arm o d).txLog = s.txLog := rfl
@[simp] theorem State.arm_pulses (o : OpState) (d : Nat) (s : State) : (s.arm o d).pulses = s.pulses := rfl
@[simp] theorem State.arm_agenda (o : OpState) (d : Nat) (s : State) : (s.arm o d).agenda = s.agenda := rfl
@[simp] theorem State.arm_draws (o : OpState) (d : Nat) (s : State) : (s.arm o d).draws = s.draws := rfl

/-! ### goIdle -/

@[simp] theorem State.goIdle_params (s : State) : s.goIdle.params = s.params := rfl
@[simp] theorem State.goIdle_tick (s : State) : s.goIdle.tick = s.tick := rfl
@[simp] theorem State.goIdle_sched (s : State) : s.goIdle.sched = s.sched := rfl
@[simp] theorem State.goIdle_armed (s : State) : s.goIdle.armed = false := rfl
@[simp] theorem State.goIdle_opState (s : State) : s.goIdle.opState = .idle := rfl
@[simp] theorem State.goIdle_driveSel (s : State) : s.goIdle.driveSel = s.driveSel := rfl
@[simp] theorem State.goIdle_head (s : State) : s.goIdle.head = s.head := rfl
@[simp] theorem State.goIdle_motorOn1 (s : State) : s.goIdle.motorOn1 = s.motorOn1 := rfl
@[simp] theorem State.goIdle_motorOn2 (s : State) : s.goIdle.motorOn2 = s.motorOn2 := rfl
@[simp] theorem State.goIdle_curCyl (s : State) : s.goIdle.curCyl = s.curCyl := rfl
@[simp] theorem State.goIdle_tgtCyl (s : State) : s.goIdle.tgtCyl = s.tgtCyl := rfl
@[simp] theorem State.goIdle_dir (s : State) : s.goIdle.dir = s.dir := rfl
@[simp] theorem State.goIdle_stepN (s : State) : s.goIdle.stepN = s.stepN := rfl
@[simp] theorem State.goIdle_idxEn (s : State) : s.goIdle.idxEn = s.idxEn := rfl
@[simp] theorem State.goIdle_idxMode (s : State) : s.goIdle.idxMode = s.idxMode := rfl
@[simp] theorem State.goIdle_idxLatch (s : State) : s.goIdle.idxLatch = s.idxLatch := rfl
@[simp] theorem State.goIdle_revCount (s : State) : s.goIdle.revCount = s.revCount := rfl
@[simp] theorem State.goIdle_revTarget (s : State) : s.goIdle.revTarget = s.revTarget := rfl
@[simp] theorem State.goIdle_idxLine (s : State) : s.goIdle.idxLine = s.idxLine := rfl
@[simp] theorem State.goIdle_qbuf (s : State) : s.goIdle.qbuf = s.qbuf := rfl
@[simp] theorem State.goIdle_qWr (s : State) : s.goIdle.qWr = s.qWr := rfl
@[simp] theorem State.goIdle_qPend (s : State) : s.goIdle.qPend = s.qPend := rfl
@[simp] theorem State.goIdle_qOvf (s : State) : s.goIdle.qOvf = s.qOvf := rfl
@[simp] theorem State.goIdle_mlPhase (s : State) : s.goIdle.mlPhase = s.mlPhase := rfl
@[simp] theorem State.goIdle_rxFifo (s : State) : s.goIdle.rxFifo = s.rxFifo := rfl
@[simp] theorem State.goIdle_txAccept (s : State) : s.goIdle.txAccept = s.txAccept := rfl
@[simp] theorem State.goIdle_trk0 (s : State) : s.goIdle.trk0 = s.trk0 := rfl
@[simp] theorem State.goIdle_diskPresent (s : State) : s.goIdle.diskPresent = s.diskPresent := rfl
@[simp] theorem State.goIdle_wpt (s : State) : s.goIdle.wpt = s.wpt := rfl
@[simp] theorem State.goIdle_txLog (s : State) : s.goIdle.txLog = s.txLog := rfl
@[simp] theorem State.goIdle_pulses (s : State) : s.goIdle.pulses = s.pulses := rfl
@[simp] theorem State.goIdle_agenda (s : State) : s.goIdle.agenda = s.agenda := rfl
@[simp] theorem State.goIdle_draws (s : State) : s.goIdle.draws = s.draws := rfl

/-! ### cancel -/

@[simp] theorem State.cancel_params (s : State) : s.cancel.params = s.params := rfl
@[simp] theorem State.cancel_tick (s : State) : s.cancel.tick = s.tick := rfl
@[simp] theorem State.cancel_sched (s : State) : s.cancel.sched = s.sched := rfl
@[simp] theorem State.cancel_armed (s : State) : s.cancel.armed = false := rfl
@[simp] theorem State.cancel_opState (s : State) : s.cancel.opState = .idle := rfl
@[simp] theorem State.cancel_driveSel (s : State) : s.cancel.driveSel = s.driveSel := rfl
@[simp] theorem State.cancel_head (s : State) : s.cancel.head = s.head := rfl
@[simp] theorem State.cancel_motorOn1 (s : State) : s.cancel.motorOn1 = s.motorOn1 := rfl
@[simp] theorem State.cancel_motorOn2 (s : State) : s.cancel.motorOn2 = s.motorOn2 := rfl
@[simp] theorem State.cancel_curCyl (s : State) : s.cancel.curCyl = s.curCyl := rfl
@[simp] theorem State.cancel_tgtCyl (s : State) : s.cancel.tgtCyl = s.tgtCyl := rfl
@[simp] theorem State.cancel_dir (s : State) : s.cancel.dir = s.dir := rfl
@[simp] theorem State.cancel_stepN (s : State) : s.cancel.stepN = s.stepN := rfl
@[simp] theorem State.cancel_idxEn (s : State) : s.cancel.idxEn = false := rfl
@[simp] theorem State.cancel_idxMode (s : State) : s.cancel.idxMode = s.idxMode := rfl
@[simp] theorem State.cancel_idxLatch (s : State) : s.cancel.idxLatch = s.idxLatch := rfl
@[simp] theorem State.cancel_revCount (s : State) : s.cancel.revCount = s.revCount := rfl
@[simp] theorem State.cancel_revTarget (s : State) : s.cancel.revTarget = s.revTarget := rfl
@[simp] theorem State.cancel_idxLine (s : State) : s.cancel.idxLine = s.idxLine := rfl
@[simp] theorem State.cancel_qbuf (s : State) : s.cancel.qbuf = s.qbuf := rfl
@[simp] theorem State.cancel_qWr (s : State) : s.cancel.qWr = s.qWr := rfl
@[simp] theorem State.cancel_qPend (s : State) : s.cancel.qPend = s.qPend := rfl
@[simp] theorem State.cancel_qOvf (s : State) : s.cancel.qOvf = s.qOvf := rfl
@[simp] theorem State.cancel_mlPhase (s : State) : s.cancel.mlPhase = s.mlPhase := rfl
@[simp] theorem State.cancel_rxFifo (s : State) : s.cancel.rxFifo = s.rxFifo := rfl
@[simp] theorem State.cancel_txAccept (s : State) : s.cancel.txAccept = s.txAccept := rfl
@[simp] theorem State.cancel_trk0 (s : State) : s.cancel.trk0 = s.trk0 := rfl
@[simp] theorem State.cancel_diskPresent (s : State) : s.cancel.diskPresent = s.diskPresent := rfl
@[simp] theorem State.cancel_wpt (s : State) : s.cancel.wpt = s.wpt := rfl
@[simp] theorem State.cancel_txLog (s : State) : s.cancel.txLog = s.txLog := rfl
@[simp] theorem State.cancel_pulses (s : State) : s.cancel.pulses = s.pulses := rfl
@[simp] theorem State.cancel_agenda (s : State) : s.cancel.agenda = s.agenda := rfl
@[simp] theorem State.cancel_draws (s : State) : s.cancel.draws = s.draws := rfl

/-! ### sendPacket -/

@[simp] theorem State.sendPacket_params (p : Packet) (s : State) : (s.sendPacket p).params = s.params := rfl
@[simp] theorem State.sendPacket_tick (p : Packet) (s : State) : (s.sendPacket p).tick = s.tick := rfl
@[simp] theorem State.sendPacket_sched (p : Packet) (s : State) : (s.sendPacket p).sched = s.sched := rfl
@[simp] theorem State.sendPacket_armed (p : Packet) (s : State) : (s.sendPacket p).armed = s.armed := rfl
@[simp] theorem State.sendPacket_opState (p : Packet) (s : State) : (s.sendPacket p).opState = s.opState := rfl
@[simp] theorem State.sendPacket_driveSel (p : Packet) (s : State) : (s.sendPacket p).driveSel = s.driveSel := rfl
@[simp] theorem State.sendPacket_head (p : Packet) (s : State) : (s.sendPacket p).head = s.head := rfl
@[simp] theorem State.sendPacket_motorOn1 (p : Packet) (s : State) : (s.sendPacket p).motorOn1 = s.motorOn1 := rfl
@[simp] theorem State.sendPacket_motorOn2 (p : Packet) (s : State) : (s.sendPacket p).motorOn2 = s.motorOn2 := rfl
@[simp] theorem State.sendPacket_curCyl (p : Packet) (s : State) : (s.sendPacket p).curCyl = s.curCyl := rfl
@[simp] theorem State.sendPacket_tgtCyl (p : Packet) (s : State) : (s.sendPacket p).tgtCyl = s.tgtCyl := rfl
@[simp] theorem State.sendPacket_dir (p : Packet) (s : State) : (s.sendPacket p).dir = s.dir := rfl
@[simp] theorem State.sendPacket_stepN (p : Packet) (s : State) : (s.sendPacket p).stepN = s.stepN := rfl
@[simp] theorem State.sendPacket_idxEn (p : Packet) (s : State) : (s.sendPacket p).idxEn = s.idxEn := rfl
@[simp] theorem State.sendPacket_idxMode (p : Packet) (s : State) : (s.sendPacket p).idxMode = s.idxMode := rfl
@[simp] theorem State.sendPacket_idxLatch (p : Packet) (s : State) : (s.sendPacket p).idxLatch = s.idxLatch := rfl
@[simp] theorem State.sendPacket_revCount (p : Packet) (s : State) : (s.sendPacket p).revCount = s.revCount := rfl
@[simp] theorem State.sendPacket_revTarget (p : Packet) (s : State) : (s.sendPacket p).revTarget = s.revTarget := rfl
@[simp] theorem State.sendPacket_idxLine (p : Packet) (s : State) : (s.sendPacket p).idxLine = s.idxLine := rfl
@[simp] theorem State.sendPacket_qbuf (p : Packet) (s : State) : (s.sendPacket p).qbuf = s.qbuf := rfl
@[simp] theorem State.sendPacket_qWr (p : Packet) (s : State) : (s.sendPacket p).qWr = s.qWr := rfl
@[simp] theorem State.sendPacket_qPend (p : Packet) (s : State) : (s.sendPacket p).qPend = s.qPend := rfl
@[simp] theorem State.sendPacket_qOvf (p : Packet) (s : State) : (s.sendPacket p).qOvf = s.qOvf := rfl
@[simp] theorem State.sendPacket_mlPhase (p : Packet) (s : State) : (s.sendPacket p).mlPhase = s.mlPhase := rfl
@[simp] theorem State.sendPacket_rxFifo (p : Packet) (s : State) : (s.sendPacket p).rxFifo = s.rxFifo := rfl
@[simp] theorem State.sendPacket_txAccept (p : Packet) (s : State) : (s.sendPacket p).txAccept = s.txAccept := rfl
@[simp] theorem State.sendPacket_trk0 (p : Packet) (s : State) : (s.sendPacket p).trk0 = s.trk0 := rfl
@[simp] theorem State.sendPacket_diskPresent (p : Packet) (s : State) : (s.sendPacket p).diskPresent = s.diskPresent := rfl
@[simp] theorem State.sendPacket_wpt (p : Packet) (s : State) : (s.sendPacket p).wpt = s.wpt := rfl
@[simp] theorem State.sendPacket_txLog (p : Packet) (s : State) : (s.sendPacket p).txLog = s.txLog ++ [p] := rfl
@[simp] theorem State.sendPacket_pulses (p : Packet) (s : State) : (s.sendPacket p).pulses = s.pulses := rfl
@[simp] theorem State.sendPacket_agenda (p : Packet) (s : State) : (s.sendPacket p).agenda = s.agenda := rfl
@[simp] theorem State.sendPacket_draws (p : Packet) (s : State) : (s.sendPacket p).draws = s.draws := rfl

/-! ### setMotor -/

@[simp] theorem State.setMotor_params (v : Bool) (s : State) : (s.setMotor v).params = s.params := rfl
@[simp] theorem State.setMotor_tick (v : Bool) (s : State) : (s.setMotor v).tick = s.tick := rfl
@[simp] theorem State.setMotor_sched (v : Bool) (s : State) : (s.setMotor v).sched = s.sched := rfl
@[simp] theorem State.setMotor_armed (v : Bool) (s : State) : (s.setMotor v).armed = s.armed := rfl
@[simp] theorem State.setMotor_opState (v : Bool) (s : State) : (s.setMotor v).opState = s.opState := rfl
@[simp] theorem State.setMotor_driveSel (v : Bool) (s : State) : (s.setMotor v).driveSel = s.driveSel := rfl
@[simp] theorem State.setMotor_head (v : Bool) (s : State) : (s.setMotor v).head = s.head := rfl
@[simp] theorem State.setMotor_motorOn1 (v : Bool) (s : State) : (s.setMotor v).motorOn1 = if s.driveSel = .drive1 then v else s.motorOn1 := rfl
@[simp] theorem State.setMotor_motorOn2 (v : Bool) (s : State) : (s.setMotor v).motorOn2 = if s.driveSel = .drive2 then v else s.motorOn2 := rfl
@[simp] theorem State.setMotor_curCyl (v : Bool) (s : State) : (s.setMotor v).curCyl = s.curCyl := rfl
@[simp] theorem State.setMotor_tgtCyl (v : Bool) (s : State) : (s.setMotor v).tgtCyl = s.tgtCyl := rfl
@[simp] theorem State.setMotor_dir (v : Bool) (s : State) : (s.setMotor v).dir = s.dir := rfl
@[simp] theorem State.setMotor_stepN (v : Bool) (s : State) : (s.setMotor v).stepN = s.stepN := rfl
@[simp] theorem State.setMotor_idxEn (v : Bool) (s : State) : (s.setMotor v).idxEn = s.idxEn := rfl
@[simp] theorem State.setMotor_idxMode (v : Bool) (s : State) : (s.setMotor v).idxMode = s.idxMode := rfl
@[simp] theorem State.setMotor_idxLatch (v : Bool) (s : State) : (s.setMotor v).idxLatch = s.idxLatch := rfl
@[simp] theorem State.setMotor_revCount (v : Bool) (s : State) : (s.setMotor v).revCount = s.revCount := rfl
@[simp] theorem State.setMotor_revTarget (v : Bool) (s : State) : (s.setMotor v).revTarget = s.revTarget := rfl
@[simp] theorem State.setMotor_idxLine (v : Bool) (s : State) : (s.setMotor v).idxLine = s.idxLine := rfl
@[simp] theorem State.setMotor_qbuf (v : Bool) (s : State) : (s.setMotor v).qbuf = s.qbuf := rfl
@[simp] theorem State.setMotor_qWr (v : Bool) (s : State) : (s.setMotor v).qWr = s.qWr := rfl
@[simp] theorem State.setMotor_qPend (v : Bool) (s : State) : (s.setMotor v).qPend = s.qPend := rfl
@[simp] theorem State.setMotor_qOvf (v : Bool) (s : State) : (s.setMotor v).qOvf = s.qOvf := rfl
@[simp] theorem State.setMotor_mlPhase (v : Bool) (s : State) : (s.setMotor v).mlPhase = s.mlPhase := rfl
@[simp] theorem State.setMotor_rxFifo (v : Bool) (s : State) : (s.setMotor v).rxFifo = s.rxFifo := rfl
@[simp] theorem State.setMotor_txAccept (v : Bool) (s : State) : (s.setMotor v).txAccept = s.txAccept := rfl
@[simp] theorem State.setMotor_trk0 (v : Bool) (s : State) : (s.setMotor v).trk0 = s.trk0 := rfl
@[simp] theorem State.setMotor_diskPresent (v : Bool) (s : State) : (s.setMotor v).diskPresent = s.diskPresent := rfl
@[simp] theorem State.setMotor_wpt (v : Bool) (s : State) : (s.setMotor v).wpt = s.wpt := rfl
@[simp] theorem State.setMotor_txLog (v : Bool) (s : State) : (s.setMotor v).txLog = s.txLog := rfl
@[simp] theorem State.setMotor_pulses (v : Bool) (s : State) : (s.setMotor v).pulses = s.pulses := rfl
@[simp] theorem State.setMotor_agenda (v : Bool) (s : State) : (s.setMotor v).agenda = s.agenda := rfl
@[simp] theorem State.setMotor_draws (v : Bool) (s : State) : (s.setMotor v).draws = s.draws := rfl

/-! ### completePulse -/

@[simp] theorem State.completePulse_params (s : State) : s.completePulse.params = s.params := rfl
@[simp] theorem State.completePulse_tick (s : State) : s.completePulse.tick = s.tick := rfl
@[simp] theorem State.completePulse_sched (s : State) : s.completePulse.sched = s.sched := rfl
@[simp] theorem State.completePulse_armed (s : State) : s.completePulse.armed = s.armed := rfl
@[simp] theorem State.completePulse_opState (s : State) : s.completePulse.opState = s.opState := rfl
@[simp] theorem State.completePulse_driveSel (s : State) : s.completePulse.driveSel = s.driveSel := rfl
@[simp] theorem State.completePulse_head (s : State) : s.completePulse.head = s.head := rfl
@[simp] theorem State.completePulse_motorOn1 (s : State) : s.completePulse.motorOn1 = s.motorOn1 := rfl
@[simp] theorem State.completePulse_motorOn2 (s : State) : s.completePulse.motorOn2 = s.motorOn2 := rfl
@[simp] theorem State.completePulse_curCyl (s : State) : s.completePulse.curCyl = s.curCyl := rfl
@[simp] theorem State.completePulse_tgtCyl (s : State) : s.completePulse.tgtCyl = s.tgtCyl := rfl
@[simp] theorem State.completePulse_dir (s : State) : s.completePulse.dir = s.dir := rfl
@[simp] theorem State.completePulse_stepN (s : State) : s.completePulse.stepN = true := rfl
@[simp] theorem State.completePulse_idxEn (s : State) : s.completePulse.idxEn = s.idxEn := rfl
@[simp] theorem State.completePulse_idxMode (s : State) : s.completePulse.idxMode = s.idxMode := rfl
@[simp] theorem State.completePulse_idxLatch (s : State) : s.completePulse.idxLatch = s.idxLatch := rfl
@[simp] theorem State.completePulse_revCount (s : State) : s.completePulse.revCount = s.revCount := rfl
@[simp] theorem State.completePulse_revTarget (s : State) : s.completePulse.revTarget = s.revTarget := rfl
@[simp] theorem State.completePulse_idxLine (s : State) : s.completePulse.idxLine = s.idxLine := rfl
@[simp] theorem State.completePulse_qbuf (s : State) : s.completePulse.qbuf = s.qbuf := rfl
@[simp] theorem State.completePulse_qWr (s : State) : s.completePulse.qWr = s.qWr := rfl
@[simp] theorem State.completePulse_qPend (s : State) : s.completePulse.qPend = s.qPend := rfl
@[simp] theorem State.completePulse_qOvf (s : State) : s.completePulse.qOvf = s.qOvf := rfl
@[simp] theorem State.completePulse_mlPhase (s : State) : s.completePulse.mlPhase = s.mlPhase := rfl
@[simp] theorem State.completePulse_rxFifo (s : State) : s.completePulse.rxFifo = s.rxFifo := rfl
@[simp] theorem State.completePulse_txAccept (s : State) : s.completePulse.txAccept = s.txAccept := rfl
@[simp] theorem State.completePulse_trk0 (s : State) : s.completePulse.trk0 = s.trk0 := rfl
@[simp] theorem State.completePulse_diskPresent (s : State) : s.completePulse.diskPresent = s.diskPresent := rfl
@[simp] theorem State.completePulse_wpt (s : State) : s.completePulse.wpt = s.wpt := rfl
@[simp] theorem State.completePulse_txLog (s : State) : s.completePulse.txLog = s.txLog := rfl
@[simp] theorem State.completePulse_pulses (s : State) : s.completePulse.pulses = s.pulses ++ [⟨s.dir, s.tick⟩] := rfl
@[simp] theorem State.completePulse_agenda (s : State) : s.completePulse.agenda = s.agenda := rfl
@[simp] theorem State.completePulse_draws (s : State) : s.completePulse.draws = s.draws := rfl

/-! ### drainBlock -/

@[simp] theorem State.drainBlock_params (s : State) : s.drainBlock.params = s.params := rfl
@[simp] theorem State.drainBlock_tick (s : State) : s.drainBlock.tick = s.tick := rfl
@[simp] theorem State.drainBlock_sched (s : State) : s.drainBlock.sched = s.sched := rfl
@[simp] theorem State.drainBlock_armed (s : State) : s.drainBlock.armed = s.armed := rfl
@[simp] theorem State.drainBlock_opState (s : State) : s.drainBlock.opState = s.opState := rfl
@[simp] theorem State.drainBlock_driveSel (s : State) : s.drainBlock.driveSel = s.driveSel := rfl
@[simp] theorem State.drainBlock_head (s : State) : s.drainBlock.head = s.head := rfl
@[simp] theorem State.drainBlock_motorOn1 (s : State) : s.drainBlock.motorOn1 = s.motorOn1 := rfl
@[simp] theorem State.drainBlock_motorOn2 (s : State) : s.drainBlock.motorOn2 = s.motorOn2 := rfl
@[simp] theorem State.drainBlock_curCyl (s : State) : s.drainBlock.curCyl = s.curCyl := rfl
@[simp] theorem State.drainBlock_tgtCyl (s : State) : s.drainBlock.tgtCyl = s.tgtCyl := rfl
@[simp] theorem State.drainBlock_dir (s : State) : s.drainBlock.dir = s.dir := rfl
@[simp] theorem State.drainBlock_stepN (s : State) : s.drainBlock.stepN = s.stepN := rfl
@[simp] theorem State.drainBlock_idxEn (s : State) : s.drainBlock.idxEn = s.idxEn := rfl
@[simp] theorem State.drainBlock_idxMode (s : State) : s.drainBlock.idxMode = s.idxMode := rfl
@[simp] theorem State.drainBlock_idxLatch (s : State) : s.drainBlock.idxLatch = s.idxLatch := rfl
@[simp] theorem State.drainBlock_revCount (s : State) : s.drainBlock.revCount = s.revCount := rfl
@[simp] theorem State.drainBlock_revTarget (s : State) : s.drainBlock.revTarget = s.revTarget := rfl
@[simp] theorem State.drainBlock_idxLine (s : State) : s.drainBlock.idxLine = s.idxLine := rfl
@[simp] theorem State.drainBlock_qbuf (s : State) : s.drainBlock.qbuf = s.qbuf := rfl
@[simp] theorem State.drainBlock_qWr (s : State) : s.drainBlock.qWr = s.qWr := rfl
@[simp] theorem State.drainBlock_qPend (s : State) : s.drainBlock.qPend = s.qPend - BitVec.ofNat 8 Config.qBlock := rfl
@[simp] theorem State.drainBlock_qOvf (s : State) : s.drainBlock.qOvf = s.qOvf := rfl
@[simp] theorem State.drainBlock_mlPhase (s : State) : s.drainBlock.mlPhase = s.mlPhase := rfl
@[simp] theorem State.drainBlock_rxFifo (s : State) : s.drainBlock.rxFifo = s.rxFifo := rfl
@[simp] theorem State.drainBlock_txAccept (s : State) : s.drainBlock.txAccept = s.txAccept := rfl
@[simp] theorem State.drainBlock_trk0 (s : State) : s.drainBlock.trk0 = s.trk0 := rfl
@[simp] theorem State.drainBlock_diskPresent (s : State) : s.drainBlock.diskPresent = s.diskPresent := rfl
@[simp] theorem State.drainBlock_wpt (s : State) : s.drainBlock.wpt = s.wpt := rfl
@[simp] theorem State.drainBlock_txLog (s : State) : s.drainBlock.txLog = s.txLog ++ [Memory.readBlock s.qbuf s.drainBase Config.qBlock] := rfl
@[simp] theorem State.drainBlock_pulses (s : State) : s.drainBlock.pulses = s.pulses := rfl
@[simp] theorem State.drainBlock_agenda (s : State) : s.drainBlock.agenda = s.agenda := rfl
@[simp] theorem State.drainBlock_draws (s : State) : s.drainBlock.draws = s.draws := rfl

/-! ### withPhase -/

@[simp] theorem State.withPhase_params (p : MlPhase) (s : State) : (s.withPhase p).params = s.params := rfl
@[simp] theorem State.withPhase_tick (p : MlPhase) (s : State) : (s.withPhase p).tick = s.tick := rfl
@[simp] theorem State.withPhase_sched (p : MlPhase) (s : State) : (s.withPhase p).sched = s.sched := rfl
@[simp] theorem State.withPhase_armed (p : MlPhase) (s : State) : (s.withPhase p).armed = s.armed := rfl
@[simp] theorem State.withPhase_opState (p : MlPhase) (s : State) : (s.withPhase p).opState = s.opState := rfl
@[simp] theorem State.withPhase_driveSel (p : MlPhase) (s : State) : (s.withPhase p).driveSel = s.driveSel := rfl
@[simp] theorem State.withPhase_head (p : MlPhase) (s : State) : (s.withPhase p).head = s.head := rfl
@[simp] theorem State.withPhase_motorOn1 (p : MlPhase) (s : State) : (s.withPhase p).motorOn1 = s.motorOn1 := rfl
@[simp] theorem State.withPhase_motorOn2 (p : MlPhase) (s : State) : (s.withPhase p).motorOn2 = s.motorOn2 := rfl
@[simp] theorem State.withPhase_curCyl (p : MlPhase) (s : State) : (s.withPhase p).curCyl = s.curCyl := rfl
@[simp] theorem State.withPhase_tgtCyl (p : MlPhase) (s : State) : (s.withPhase p).tgtCyl = s.tgtCyl := rfl
@[simp] theorem State.withPhase_dir (p : MlPhase) (s : State) : (s.withPhase p).dir = s.dir := rfl
@[simp] theorem State.withPhase_stepN (p : MlPhase) (s : State) : (s.withPhase p).stepN = s.stepN := rfl
@[simp] theorem State.withPhase_idxEn (p : MlPhase) (s : State) : (s.withPhase p).idxEn = s.idxEn := rfl
@[simp] theorem State.withPhase_idxMode (p : MlPhase) (s : State) : (s.withPhase p).idxMode = s.idxMode := rfl
@[simp] theorem State.withPhase_idxLatch (p : MlPhase) (s : State) : (s.withPhase p).idxLatch = s.idxLatch := rfl
@[simp] theorem State.withPhase_revCount (p : MlPhase) (s : State) : (s.withPhase p).revCount = s.revCount := rfl
@[simp] theorem State.withPhase_revTarget (p : MlPhase) (s : State) : (s.withPhase p).revTarget = s.revTarget := rfl
@[simp] theorem State.withPhase_idxLine (p : MlPhase) (s : State) : (s.withPhase p).idxLine = s.idxLine := rfl
@[simp] theorem State.withPhase_qbuf (p : MlPhase) (s : State) : (s.withPhase p).qbuf = s.qbuf := rfl
@[simp] theorem State.withPhase_qWr (p : MlPhase) (s : State) : (s.withPhase p).qWr = s.qWr := rfl
@[simp] theorem State.withPhase_qPend (p : MlPhase) (s : State) : (s.withPhase p).qPend = s.qPend := rfl
@[simp] theorem State.withPhase_qOvf (p : MlPhase) (s : State) : (s.withPhase p).qOvf = s.qOvf := rfl
@[simp] theorem State.withPhase_mlPhase (p : MlPhase) (s : State) : (s.withPhase p).mlPhase = p := rfl
@[simp] theorem State.withPhase_rxFifo (p : MlPhase) (s : State) : (s.withPhase p).rxFifo = s.rxFifo := rfl
@[simp] theorem State.withPhase_txAccept (p : MlPhase) (s : State) : (s.withPhase p).txAccept = s.txAccept := rfl
@[simp] theorem State.withPhase_trk0 (p : MlPhase) (s : State) : (s.withPhase p).trk0 = s.trk0 := rfl
@[simp] theorem State.withPhase_diskPresent (p : MlPhase) (s : State) : (s.withPhase p).diskPresent = s.diskPresent := rfl
@[simp] theorem State.withPhase_wpt (p : MlPhase) (s : State) : (s.withPhase p).wpt = s.wpt := rfl
@[simp] theorem State.withPhase_txLog (p : MlPhase) (s : State) : (s.withPhase p).txLog = s.txLog := rfl
@[simp] theorem State.withPhase_pulses (p : MlPhase) (s : State) : (s.withPhase p).pulses = s.pulses := rfl
@[simp] theorem State.withPhase_agenda (p : MlPhase) (s : State) : (s.withPhase p).agenda = s.agenda := rfl
@[simp] theorem State.withPhase_draws (p : MlPhase) (s : State) : (s.withPhase p).draws = s.draws := rfl

/-! ### afterChoice -/

@[simp] theorem State.afterChoice_params (s : State) : s.afterChoice.params = s.params := rfl
@[simp] theorem State.afterChoice_tick (s : State) : s.afterChoice.tick = s.tick := rfl
@[simp] theorem State.afterChoice_sched (s : State) : s.afterChoice.sched = s.sched := rfl
@[simp] theorem State.afterChoice_armed (s : State) : s.afterChoice.armed = s.armed := rfl
@[simp] theorem State.afterChoice_opState (s : State) : s.afterChoice.opState = s.opState := rfl
@[simp] theorem State.afterChoice_driveSel (s : State) : s.afterChoice.driveSel = s.driveSel := rfl
@[simp] theorem State.afterChoice_head (s : State) : s.afterChoice.head = s.head := rfl
@[simp] theorem State.afterChoice_motorOn1 (s : State) : s.afterChoice.motorOn1 = s.motorOn1 := rfl
@[simp] theorem State.afterChoice_motorOn2 (s : State) : s.afterChoice.motorOn2 = s.motorOn2 := rfl
@[simp] theorem State.afterChoice_curCyl (s : State) : s.afterChoice.curCyl = s.curCyl := rfl
@[simp] theorem State.afterChoice_tgtCyl (s : State) : s.afterChoice.tgtCyl = s.tgtCyl := rfl
@[simp] theorem State.afterChoice_dir (s : State) : s.afterChoice.dir = s.dir := rfl
@[simp] theorem State.afterChoice_stepN (s : State) : s.afterChoice.stepN = s.stepN := rfl
@[simp] theorem State.afterChoice_idxEn (s : State) : s.afterChoice.idxEn = s.idxEn := rfl
@[simp] theorem State.afterChoice_idxMode (s : State) : s.afterChoice.idxMode = s.idxMode := rfl
@[simp] theorem State.afterChoice_idxLatch (s : State) : s.afterChoice.idxLatch = s.idxLatch := rfl
@[simp] theorem State.afterChoice_revCount (s : State) : s.afterChoice.revCount = s.revCount := rfl
@[simp] theorem State.afterChoice_revTarget (s : State) : s.afterChoice.revTarget = s.revTarget := rfl
@[simp] theorem State.afterChoice_idxLine (s : State) : s.afterChoice.idxLine = s.idxLine := rfl
@[simp] theorem State.afterChoice_qbuf (s : State) : s.afterChoice.qbuf = s.qbuf := rfl
@[simp] theorem State.afterChoice_qWr (s : State) : s.afterChoice.qWr = s.qWr := rfl
@[simp] theorem State.afterChoice_qPend (s : State) : s.afterChoice.qPend = s.qPend := rfl
@[simp] theorem State.afterChoice_qOvf (s : State) : s.afterChoice.qOvf = s.qOvf := rfl
@[simp] theorem State.afterChoice_mlPhase (s : State) : s.afterChoice.mlPhase = s.mlPhase := rfl
@[simp] theorem State.afterChoice_rxFifo (s : State) : s.afterChoice.rxFifo = s.rxFifo := rfl
@[simp] theorem State.afterChoice_txAccept (s : State) : s.afterChoice.txAccept = s.txAccept := rfl
@[simp] theorem State.afterChoice_trk0 (s : State) : s.afterChoice.trk0 = s.trk0 := rfl
@[simp] theorem State.afterChoice_diskPresent (s : State) : s.afterChoice.diskPresent = s.diskPresent := rfl
@[simp] theorem State.afterChoice_wpt (s : State) : s.afterChoice.wpt = s.wpt := rfl
@[simp] theorem State.afterChoice_txLog (s : State) : s.afterChoice.txLog = s.txLog := rfl
@[simp] theorem State.afterChoice_pulses (s : State) : s.afterChoice.pulses = s.pulses := rfl
@[simp] theorem State.afterChoice_agenda (s : State) : s.afterChoice.agenda = s.agenda.tail := rfl
@[simp] theorem State.afterChoice_draws (s : State) : s.afterChoice.draws = if s.agenda.isEmpty then s.draws + 1 else s.draws := rfl

@[simp] theorem State.respond_eq (r : Response) (s : State) : s.respond r = s.push r.code := rfl

@[simp] theorem State.startPulse_eq (d : Nat) (s : State) :
    s.startPulse d = State.arm .stepPulseLow d { s with stepN := false } := rfl

end Sys2Proof.Machine
end

