-- ==== Sys2Proof/Laws/Step.lean ====
section
/-! SUPPORT. What a command, an event and a step do, as plain functions of the state: the equations by which proofs run them. Every command
and every event answers a next state; only `step` refuses, and only by `State.refusal`. -/

namespace Sys2Proof.Machine

/-! ### Commands -/

/-- The state after a command frame. -/
def effect (i : Instr) (s : State) : State :=
  match i with
  | .halt => s
  | .selectDrive p =>
    match driveOperand p with
    | none => s
    | some d => State.push Response.done.code { s with driveSel := d }
  | .cylinder t => if t > Config.cylMax then s else s.seek t
  | .head p =>
    match sideOperand p with
    | none => s
    | some b => State.push Response.done.code { s with head := b }
  | .checkDisk => State.push (if s.diskPresent then Response.diskLoaded else Response.noDisk).code s
  | .motor v =>
    if v = 0 then State.push Response.done.code (s.setMotor false)
    else State.arm .spinningUp s.params.spinupDelay (s.cancel.setMotor true)
  | .read => s.startRead 1
  | .readMulti n => s.startRead n
  | .handshake => if s.txAccept then s.sendPacket handshakePacket else s

/-- Every command answers a next state. -/
theorem exec_eq (i : Instr) (s : State) : exec i s = .next (effect i s) := by
  cases i with
  | selectDrive p =>
    simp only [exec, execSelectDrive, effect, State.respond_eq]
    cases driveOperand p <;> rfl
  | cylinder t => by_cases h : t > Config.cylMax <;> simp only [exec, execCylinder, effect, cylinderOperand, h, if_true, if_false]
  | head p =>
    simp only [exec, execHead, effect, State.respond_eq]
    cases sideOperand p <;> rfl
  | motor v =>
    have h : motorOperand v = !decide (v = 0) := by simp [motorOperand, bne, BEq.beq]
    by_cases h0 : v = 0 <;> simp only [exec, execMotor, effect, h, h0] <;> rfl
  | halt | checkDisk | read | readMulti _ | handshake => rfl

/-! ### Operands -/

theorem driveOperand_of_le {p : Byte} (h : p.toNat ≤ 2) :
    ∃ d, driveOperand p = some d ∧ d.code.toNat = p.toNat ∧ (d == .drive1) = (p == 1) ∧ (d == .drive2) = (p == 2) := by
  have hp : p = 0 ∨ p = 1 ∨ p = 2 := by
    have : p.toNat = 0 ∨ p.toNat = 1 ∨ p.toNat = 2 := by omega
    rcases this with h | h | h
    · exact .inl (BitVec.eq_of_toNat_eq h)
    · exact .inr (.inl (BitVec.eq_of_toNat_eq h))
    · exact .inr (.inr (BitVec.eq_of_toNat_eq h))
  rcases hp with rfl | rfl | rfl
  · exact ⟨.none, by decide⟩
  · exact ⟨.drive1, by decide⟩
  · exact ⟨.drive2, by decide⟩

theorem driveOperand_of_gt {p : Byte} (h : 2 < p.toNat) : driveOperand p = none := by
  simp [driveOperand, BitVec.lt_def, h]

theorem sideOperand_of_le {p : Byte} (h : p.toNat ≤ 1) : sideOperand p = some (p == 1) := by
  have hp : p = 0 ∨ p = 1 := by
    have : p.toNat = 0 ∨ p.toNat = 1 := by omega
    rcases this with h | h
    · exact .inl (BitVec.eq_of_toNat_eq h)
    · exact .inr (BitVec.eq_of_toNat_eq h)
  rcases hp with rfl | rfl <;> decide

theorem sideOperand_of_gt {p : Byte} (h : 1 < p.toNat) : sideOperand p = none := by
  simp [sideOperand, BitVec.lt_def, h]

theorem cylMax_lt_iff (t : Byte) : t > Config.cylMax ↔ 79 < t.toNat := by
  simp [Config.cylMax, BitVec.lt_def]

/-! ### Phases and events -/

/-- The state after an RX phase step. -/
def rxEffect (s : State) : State :=
  match s.rxFifo with
  | [] => s.withPhase .poll
  | pkt :: rest =>
    if holdsForReply pkt s then s
    else
      match decode pkt with
      | .error _ => ({ s with rxFifo := rest } : State).withPhase .poll
      | .ok i => (effect i { s with rxFifo := rest }).withPhase .poll

theorem rxPhase_eq (s : State) : s.rxPhase = .next (rxEffect s) := by
  unfold State.rxPhase rxEffect
  cases s.rxFifo with
  | nil => rfl
  | cons pkt rest =>
    simp only
    split
    · rfl
    · unfold dispatchPacket
      cases decode pkt with
      | error e => rfl
      | ok i => simp only [exec_eq]; rfl

/-- The state after a step of MAIN. -/
def mainEffect (s : State) : State :=
  match s.mlPhase with
  | .drain => s.drainPhase
  | .rx => rxEffect s
  | .poll => s.pollPhase

theorem mainStep_eq (s : State) : s.mainStep = .next (mainEffect s) := by
  unfold State.mainStep mainEffect
  cases s.mlPhase <;> simp [rxPhase_eq]

/-- The state after an event. -/
def eventEffect (e : Event) (s : State) : State :=
  match e with
  | .tick => s.tickStep
  | .idxFall => s.idxFall
  | .idxRise => s.idxRise
  | .main => mainEffect s
  | .hostSend pkt => s.hostSend pkt
  | .hostAccept on => { s with txAccept := on }
  | .setTrk0 v => { s with trk0 := v }
  | .setDisk v => { s with diskPresent := v }
  | .setWpt v => { s with wpt := v }

/-- Every event answers a next state. -/
theorem takeEvent_eq (e : Event) (s : State) : takeEvent e s = .next (eventEffect e s) := by
  cases e <;> simp [takeEvent, eventEffect, mainStep_eq]

/-! ### The step -/

theorem step_of_refusal {s : State} (h : s.refusal = none) : step s = .next (eventEffect s.nextEvent s.afterChoice) := by
  simp [step, h, takeEvent_eq]

/-- A step answers a next state exactly when the model does not refuse the state, and then the effect of its next event. -/
theorem step_next_iff {s t : State} : step s = .next t ↔ s.refusal = none ∧ t = eventEffect s.nextEvent s.afterChoice := by
  cases h : s.refusal with
  | none => rw [step_of_refusal h]; simp [eq_comm]
  | some r => simp [step, h]

theorem refusal_none_iff (s : State) :
    s.refusal = none ↔ Params.valid s.params = true ∧ s.opState ≠ .stepPulseHigh := by
  unfold State.refusal
  cases Params.valid s.params <;> simp

/-! ### The next packet -/

/-- A packet decodes to HANDSHAKE exactly when its byte 0 is the HANDSHAKE opcode. -/
theorem decode_handshake_iff (pkt : Packet) : decode pkt = .ok .handshake ↔ pkt.head? = some 0x69 := by
  cases pkt with
  | nil => simp [decode]
  | cons b rest =>
    constructor
    · intro h
      simp only [decode, Opcode.ofByte] at h
      split_ifs at h <;> cases rest <;> simp_all [Opcode.needsByte1, Opcode.frame]
    · intro h
      have : b = 0x69 := by simpa using h
      subst this
      rfl

theorem holdsForReply_iff (pkt : Packet) (s : State) :
    holdsForReply pkt s = true ↔ decode pkt = .ok .handshake ∧ s.txAccept = false := by
  rw [decode_handshake_iff]
  simp [holdsForReply, Opcode.code]

theorem rxEffect_nil {s : State} (hf : s.rxFifo = []) : rxEffect s = s.withPhase .poll := by
  simp only [rxEffect, hf]

theorem rxEffect_hold {s : State} {pkt : Packet} {rest : List Packet} (hf : s.rxFifo = pkt :: rest)
    (hh : holdsForReply pkt s = true) : rxEffect s = s := by
  simp only [rxEffect, hf, hh, if_true]

theorem rxEffect_ok {s : State} {pkt : Packet} {rest : List Packet} {i : Instr} (hf : s.rxFifo = pkt :: rest)
    (hd : decode pkt = .ok i) (hh : i = .handshake → s.txAccept = true) :
    rxEffect s = (effect i { s with rxFifo := rest }).withPhase .poll := by
  have : holdsForReply pkt s = false := by
    rw [Bool.eq_false_iff, Ne, holdsForReply_iff, hd]
    rintro ⟨h1, h2⟩
    simp [hh (by simpa using h1)] at h2
  simp only [rxEffect, hf, this, hd, Bool.false_eq_true, if_false]

theorem rxEffect_error {s : State} {pkt : Packet} {rest : List Packet} {e : DecodeError} (hf : s.rxFifo = pkt :: rest)
    (hd : decode pkt = .error e) : rxEffect s = ({ s with rxFifo := rest } : State).withPhase .poll := by
  have : holdsForReply pkt s = false := by
    rw [Bool.eq_false_iff, Ne, holdsForReply_iff, hd]; simp
  simp only [rxEffect, hf, this, hd, Bool.false_eq_true, if_false]

/-! ### A step of MAIN by its phase -/

theorem step_drain {s : State} (hr : s.refusal = none) (hm : s.mainNext .drain) : step s = .next s.afterChoice.drainPhase := by
  rw [step_of_refusal hr, hm.1]
  simp only [eventEffect, mainEffect, State.afterChoice_mlPhase, hm.2]

theorem step_rx {s : State} (hr : s.refusal = none) (hm : s.mainNext .rx) : step s = .next (rxEffect s.afterChoice) := by
  rw [step_of_refusal hr, hm.1]
  simp only [eventEffect, mainEffect, State.afterChoice_mlPhase, hm.2]

theorem step_poll {s : State} (hr : s.refusal = none) (hm : s.mainNext .poll) : step s = .next s.afterChoice.pollPhase := by
  rw [step_of_refusal hr, hm.1]
  simp only [eventEffect, mainEffect, State.afterChoice_mlPhase, hm.2]

theorem step_event {s : State} {e : Event} (hr : s.refusal = none) (he : s.nextEvent = e) :
    step s = .next (eventEffect e s.afterChoice) := by
  rw [step_of_refusal hr, he]

/-! ### Polling -/

theorem wakes_iff (s : State) : s.wakes = true ↔ s.opState ≠ .idle ∧ s.armed = true ∧ s.due = true := by
  simp [State.wakes, and_assoc]

theorem pollOnce_of_not_wakes {s : State} (h : s.wakes = false) : s.pollOnce = s := by
  simp only [State.pollOnce, h, Bool.false_eq_true, if_false]

theorem pollOnce_of_wakes {s : State} (h : s.wakes = true) : s.pollOnce = s.wake := by
  simp only [State.pollOnce, h, if_true]

theorem wake_stepPulseLow {s : State} (h : s.opState = .stepPulseLow) : s.wake = s.wakeStepPulseLow := by
  simp only [State.wake, h]

theorem wake_stepSettle {s : State} (h : s.opState = .stepSettle) : s.wake = s.wakeStepSettle := by
  simp only [State.wake, h]

theorem wake_spinningUp {s : State} (h : s.opState = .spinningUp) : s.wake = s.wakeSpinningUp := by
  simp only [State.wake, h]

theorem wake_reading {s : State} (h : s.opState = .reading) : s.wake = s.wakeReadTimeout := by
  simp only [State.wake, h]

/-! ### Pushing -/

/-- `push` of a listed byte has the effect R181 and R182 give it. -/
theorem pushedOnto_push {b : Byte} (hb : b ≠ Memory.unlisted) (s : State) : PushedOnto b s (s.push b) := by
  refine ⟨fun a => ?_, ?_⟩
  · simpa using Memory.read_write_of_ne hb s.qbuf s.qWr.toNat a
  · simp only [State.push, State.queueFull, Config.qCap, beq_iff_eq]

end Sys2Proof.Machine
end

