-- ==== Sys2Proof/Laws/Effects.lean ====
section
/-! SUPPORT. One lemma per branch of the operations that branch: the seek, the pulse wake, the capture reaction, the tick, the drain. -/

namespace Sys2Proof.Machine

/-! ### CYLINDER -/

theorem effect_cylinder_of_le {t : Byte} (h : t.toNat ≤ 79) (s : State) : effect (.cylinder t) s = s.seek t := by
  simp only [effect]; rw [if_neg (by rw [cylMax_lt_iff]; omega)]

theorem effect_cylinder_of_gt {t : Byte} (h : 79 < t.toNat) (s : State) : effect (.cylinder t) s = s := by
  simp only [effect]; rw [if_pos ((cylMax_lt_iff t).2 h)]

theorem seek_zero_atTrack0 {s : State} (h : s.trk0 = true) :
    s.seek 0 = State.push Response.done.code { s.cancel with tgtCyl := 0, curCyl := 0 } := by
  simp only [State.seek, if_true, if_pos h]; rfl

theorem seek_zero_away {s : State} (h : s.trk0 = false) :
    s.seek 0 = State.startPulse s.params.stepFirstDelay { s.cancel with tgtCyl := 0, dir := .outward } := by
  simp only [State.seek, if_true, if_neg (Bool.eq_false_iff.1 h)]

theorem seek_here {s : State} {t : Byte} (h0 : t ≠ 0) (h : t = s.curCyl) :
    s.seek t = State.push Response.done.code { s.cancel with tgtCyl := t } := by
  simp only [State.seek, if_neg h0, if_pos h]; rfl

theorem seek_inward {s : State} {t : Byte} (h : s.curCyl.toNat < t.toNat) :
    s.seek t = State.startPulse s.params.stepFirstDelay { s.cancel with tgtCyl := t, dir := .inward } := by
  have h0 : t ≠ 0 := by rintro rfl; simp at h
  have hne : t ≠ s.curCyl := by rintro rfl; omega
  have hgt : t > s.curCyl := h
  simp only [State.seek, if_neg h0, if_neg hne, if_pos hgt]

theorem seek_outward {s : State} {t : Byte} (h0 : t ≠ 0) (h : t.toNat < s.curCyl.toNat) :
    s.seek t = State.startPulse s.params.stepFirstDelay { s.cancel with tgtCyl := t, dir := .outward } := by
  have hne : t ≠ s.curCyl := by rintro rfl; omega
  have hgt : ¬ t > s.curCyl := by simp only [gt_iff_lt, BitVec.lt_def]; omega
  simp only [State.seek, if_neg h0, if_neg hne, if_neg hgt]

/-- The four outcomes of a legal seek. -/
theorem seek_cases (t : Byte) (s : State) :
    (t = 0 ∧ s.trk0 = true ∧ s.seek t = State.push Response.done.code { s.cancel with tgtCyl := 0, curCyl := 0 }) ∨
    (t ≠ 0 ∧ t = s.curCyl ∧ s.seek t = State.push Response.done.code { s.cancel with tgtCyl := t }) ∨
    (t = 0 ∧ s.trk0 = false ∧
      s.seek t = State.startPulse s.params.stepFirstDelay { s.cancel with tgtCyl := t, dir := .outward }) ∨
    (t ≠ 0 ∧ t ≠ s.curCyl ∧ s.seek t = State.startPulse s.params.stepFirstDelay
      { s.cancel with tgtCyl := t, dir := if s.curCyl.toNat < t.toNat then .inward else .outward }) := by
  by_cases h0 : t = 0
  · subst h0
    cases h : s.trk0 with
    | true => exact .inl ⟨rfl, rfl, seek_zero_atTrack0 h⟩
    | false => exact .inr (.inr (.inl ⟨rfl, rfl, seek_zero_away h⟩))
  · by_cases hc : t = s.curCyl
    · exact .inr (.inl ⟨h0, hc, seek_here h0 hc⟩)
    · refine .inr (.inr (.inr ⟨h0, hc, ?_⟩))
      by_cases hl : s.curCyl.toNat < t.toNat
      · rw [if_pos hl, seek_inward hl]
      · rw [if_neg hl, seek_outward h0]
        have : t.toNat ≠ s.curCyl.toNat := fun h => hc (BitVec.eq_of_toNat_eq h)
        omega

theorem effect_handshake {s : State} (h : s.txAccept = true) : effect .handshake s = s.sendPacket handshakePacket := by
  simp only [effect, if_pos h]

/-! ### The STEP_PULSE_LOW wake -/

theorem wakeStepPulseLow_track0 {s : State} (h : s.tgtCyl = 0 ∧ s.trk0 = true) :
    s.wakeStepPulseLow = State.arm .stepSettle s.params.settleDelay { s.completePulse with curCyl := 0 } := by
  simp only [State.wakeStepPulseLow, if_pos h]

theorem wakeStepPulseLow_arrived {s : State} (h : ¬(s.tgtCyl = 0 ∧ s.trk0 = true))
    (h' : cylinderAfterPulse s.dir s.curCyl = s.tgtCyl) :
    s.wakeStepPulseLow = State.arm .stepSettle s.params.settleDelay
      { s.completePulse with curCyl := cylinderAfterPulse s.dir s.curCyl } := by
  simp only [State.wakeStepPulseLow, if_neg h]
  rw [if_pos (show cylinderAfterPulse s.dir s.curCyl = s.completePulse.tgtCyl from h')]

theorem wakeStepPulseLow_onward {s : State} (h : ¬(s.tgtCyl = 0 ∧ s.trk0 = true))
    (h' : cylinderAfterPulse s.dir s.curCyl ≠ s.tgtCyl) :
    s.wakeStepPulseLow = State.startPulse s.params.stepPeriod
      { s.completePulse with curCyl := cylinderAfterPulse s.dir s.curCyl } := by
  simp only [State.wakeStepPulseLow, if_neg h]
  rw [if_neg (show ¬ cylinderAfterPulse s.dir s.curCyl = s.completePulse.tgtCyl from h')]

/-- The three outcomes of the pulse wake. -/
theorem wakeStepPulseLow_cases (s : State) :
    (s.tgtCyl = 0 ∧ s.trk0 = true ∧
      s.wakeStepPulseLow = State.arm .stepSettle s.params.settleDelay { s.completePulse with curCyl := 0 }) ∨
    (cylinderAfterPulse s.dir s.curCyl = s.tgtCyl ∧
      s.wakeStepPulseLow = State.arm .stepSettle s.params.settleDelay
        { s.completePulse with curCyl := cylinderAfterPulse s.dir s.curCyl }) ∨
    (¬(s.tgtCyl = 0 ∧ s.trk0 = true) ∧ cylinderAfterPulse s.dir s.curCyl ≠ s.tgtCyl ∧
      s.wakeStepPulseLow = State.startPulse s.params.stepPeriod
        { s.completePulse with curCyl := cylinderAfterPulse s.dir s.curCyl }) := by
  by_cases h : s.tgtCyl = 0 ∧ s.trk0 = true
  · exact .inl ⟨h.1, h.2, wakeStepPulseLow_track0 h⟩
  · by_cases h' : cylinderAfterPulse s.dir s.curCyl = s.tgtCyl
    · exact .inr (.inl ⟨h', wakeStepPulseLow_arrived h h'⟩)
    · exact .inr (.inr ⟨h, h', wakeStepPulseLow_onward h h'⟩)

/-! ### The capture reaction -/

theorem capture_firstOn {s : State} (h : s.idxLatch = false) (hm : s.idxMode = .falling) :
    s.capture = State.push Response.indexOn.code
      { s with idxLatch := true, revCount := (s.revCount + 1) % 2 ^ s.params.revW, idxMode := .both, armed := false } := by
  simp only [State.capture, h, Bool.false_eq_true, if_false, State.captureOn, if_pos hm]
  rfl

theorem capture_laterOn {s : State} (h : s.idxLatch = false) (hm : s.idxMode = .both) :
    s.capture = State.push Response.indexOn.code
      { s with idxLatch := true, revCount := (s.revCount + 1) % 2 ^ s.params.revW } := by
  simp only [State.capture, h, Bool.false_eq_true, if_false, State.captureOn]
  rw [if_neg (by simp [hm])]
  rfl

theorem capture_off {s : State} (h : s.idxLatch = true) (hx : s.revCount ≤ s.revTarget.toNat) :
    s.capture = State.push Response.indexOff.code { s with idxLatch := false } := by
  have : s.revsExceeded = false := by simp [State.revsExceeded, hx]
  simp only [State.capture, State.captureOff, if_pos h, this, Bool.false_eq_true, if_false]
  rfl

theorem capture_lastOff {s : State} (h : s.idxLatch = true) (hx : s.revTarget.toNat < s.revCount) :
    s.capture = State.push Response.done.code { State.push Response.indexOff.code { s with idxLatch := false } with
      opState := .idle, armed := false, idxEn := false } := by
  have : s.revsExceeded = true := by simp [State.revsExceeded, hx]
  simp only [State.capture, State.captureOff, if_pos h, if_pos this]
  rfl

/-- The four outcomes of the capture reaction. -/
theorem capture_cases (s : State) :
    (s.idxLatch = false ∧ s.idxMode = .falling ∧ s.capture = State.push Response.indexOn.code
      { s with idxLatch := true, revCount := (s.revCount + 1) % 2 ^ s.params.revW, idxMode := .both, armed := false }) ∨
    (s.idxLatch = false ∧ s.idxMode = .both ∧ s.capture = State.push Response.indexOn.code
      { s with idxLatch := true, revCount := (s.revCount + 1) % 2 ^ s.params.revW }) ∨
    (s.idxLatch = true ∧ s.revCount ≤ s.revTarget.toNat ∧
      s.capture = State.push Response.indexOff.code { s with idxLatch := false }) ∨
    (s.idxLatch = true ∧ s.revTarget.toNat < s.revCount ∧
      s.capture = State.push Response.done.code { State.push Response.indexOff.code { s with idxLatch := false } with
        opState := .idle, armed := false, idxEn := false }) := by
  have hl : s.idxLatch = false ∨ s.idxLatch = true := by cases s.idxLatch <;> simp
  have hm : s.idxMode = .falling ∨ s.idxMode = .both := by cases s.idxMode <;> simp
  rcases hl with h | h
  · rcases hm with hm | hm
    · exact .inl ⟨h, hm, capture_firstOn h hm⟩
    · exact .inr (.inl ⟨h, hm, capture_laterOn h hm⟩)
  · rcases Nat.lt_or_ge s.revTarget.toNat s.revCount with hx | hx
    · exact .inr (.inr (.inr ⟨h, hx, capture_lastOff h hx⟩))
    · exact .inr (.inr (.inl ⟨h, hx, capture_off h hx⟩))

/-- The outcomes of IDX_FALL. -/
theorem idxFall_cases (s : State) :
    (s.idxLine = false ∧ s.idxFall = s) ∨
    (s.idxLine = true ∧ s.idxEn = false ∧ s.idxFall = { s with idxLine := false }) ∨
    (s.idxLine = true ∧ s.idxEn = true ∧ s.idxFall = State.capture { s with idxLine := false }) := by
  cases h : s.idxLine <;> cases he : s.idxEn <;> simp [State.idxFall, State.fallQualifies, h, he]

/-- The outcomes of IDX_RISE. -/
theorem idxRise_cases (s : State) :
    (s.idxLine = true ∧ s.idxRise = s) ∨
    (s.idxLine = false ∧ (s.idxEn = false ∨ s.idxMode = .falling) ∧ s.idxRise = { s with idxLine := true }) ∨
    (s.idxLine = false ∧ s.idxEn = true ∧ s.idxMode = .both ∧ s.idxRise = State.capture { s with idxLine := true }) := by
  cases h : s.idxLine <;> cases he : s.idxEn <;> cases hm : s.idxMode <;>
    simp [State.idxRise, State.riseQualifies, h, he, hm]

/-! ### TICK and DRAIN -/

theorem tickStep_quiet {s : State} (h : s.qOvf = false) :
    s.tickStep = { s with tick := (s.tick + 1) % 2 ^ s.params.tickW } := by
  simp only [State.tickStep, State.overflowDetector]
  rw [if_neg (by simp [h])]

theorem tickStep_overflow {s : State} (h : s.qOvf = true) :
    s.tickStep = State.markerPush Response.overflow.code
      { s with tick := (s.tick + 1) % 2 ^ s.params.tickW, qOvf := false } := by
  simp only [State.tickStep, State.overflowDetector, if_pos h]

/-- The outcomes of the DRAIN phase step. -/
theorem drainPhase_cases (s : State) :
    (s.qPend.toNat ≤ 64 ∧ s.drainPhase = { s with mlPhase := .rx }) ∨
    (64 < s.qPend.toNat ∧ s.txAccept = false ∧ s.drainPhase = s) ∨
    (64 < s.qPend.toNat ∧ s.txAccept = true ∧ s.drainPhase = { s.drainBlock with mlPhase := .rx }) := by
  by_cases h : 64 < s.qPend.toNat
  · have hb : s.blockPending = true := by simp [State.blockPending, Config.qBlock, h]
    cases ha : s.txAccept <;> simp [State.drainPhase, hb, ha, h]
  · have hb : s.blockPending = false := by simp [State.blockPending, Config.qBlock]; omega
    exact .inl ⟨by omega, by simp [State.drainPhase, hb]⟩

/-- The outcomes of the RX phase step. -/
theorem rxEffect_cases (s : State) :
    (s.rxFifo = [] ∧ rxEffect s = s.withPhase .poll) ∨
    (∃ pkt rest, s.rxFifo = pkt :: rest ∧ decode pkt = .ok .handshake ∧ s.txAccept = false ∧ rxEffect s = s) ∨
    (∃ pkt rest e, s.rxFifo = pkt :: rest ∧ decode pkt = .error e ∧
      rxEffect s = ({ s with rxFifo := rest } : State).withPhase .poll) ∨
    (∃ pkt rest i, s.rxFifo = pkt :: rest ∧ decode pkt = .ok i ∧ (i = .handshake → s.txAccept = true) ∧
      rxEffect s = (effect i { s with rxFifo := rest }).withPhase .poll) := by
  rcases hf : s.rxFifo with _ | ⟨pkt, rest⟩
  · exact .inl ⟨rfl, rxEffect_nil hf⟩
  · rcases hd : decode pkt with e | i
    · exact .inr (.inr (.inl ⟨pkt, rest, e, rfl, hd, rxEffect_error hf hd⟩))
    · by_cases hh : i = .handshake ∧ s.txAccept = false
      · obtain ⟨rfl, ha⟩ := hh
        exact .inr (.inl ⟨pkt, rest, rfl, hd, ha, rxEffect_hold hf ((holdsForReply_iff _ _).2 ⟨hd, ha⟩)⟩)
      · have hh' : i = .handshake → s.txAccept = true := fun hi => by simpa [hi] using hh
        exact .inr (.inr (.inr ⟨pkt, rest, i, rfl, hd, hh', rxEffect_ok hf hd hh'⟩))

end Sys2Proof.Machine
end

