-- ==== Sys2Proof/Laws/PerInstr.lean ====
section
/-! SUPPORT. One family of statements per instruction: the opcode table's word of a frame (R82) decodes to that frame. -/

namespace Sys2Proof.Laws.TableWord

/-- The word `F = byte1 ++ byte0` of the frame, with an absent byte 1 written 0, is read back as the frame (R82, R83). -/
def Statement (i : Instr) : Prop := decodeTableWord 16 (frameWord (encode i)).toNat = some i

/-- The two bytes of a word are the two it was made of. -/
theorem packetOfWord_append (b1 b0 : Byte) : packetOfWord 16 (b1 ++ b0 : FrameWord).toNat = [b0, b1] := by
  have h0 := b0.isLt
  have h1 := b1.isLt
  have e : (b1 ++ b0 : FrameWord).toNat = b1.toNat * 256 + b0.toNat := by
    rw [BitVec.toNat_append, ← Nat.shiftLeft_add_eq_or_of_lt h0, Nat.shiftLeft_eq]
  simp only [packetOfWord, e]
  congr 1
  · apply BitVec.eq_of_toNat_eq; rw [BitVec.toNat_ofNat]; omega
  · congr 1; apply BitVec.eq_of_toNat_eq; rw [BitVec.toNat_ofNat]; omega

/-- A frame whose packet holds byte 1. -/
theorem statement_of_two {i : Instr} {b0 b1 : Byte} (he : encode i = [b0, b1]) (hd : decode [b0, b1] = .ok i) : Statement i := by
  rw [Statement, he, decodeTableWord, show frameWord [b0, b1] = b1 ++ b0 from rfl, packetOfWord_append, hd]

theorem halt : Statement .halt := rfl

theorem selectDrive (param : Byte) : Statement (.selectDrive param) := statement_of_two rfl rfl

theorem cylinder (t : Byte) : Statement (.cylinder t) := statement_of_two rfl rfl

theorem head (param : Byte) : Statement (.head param) := statement_of_two rfl rfl

theorem checkDisk : Statement .checkDisk := rfl

theorem motor (v : Byte) : Statement (.motor v) := statement_of_two rfl rfl

theorem read : Statement .read := rfl

theorem readMulti (n : Byte) : Statement (.readMulti n) := statement_of_two rfl rfl

theorem handshake : Statement .handshake := rfl

end Sys2Proof.Laws.TableWord
end

