-- ==== Sys2Proof/Laws/StepCase.lean ====
section
/-! SUPPORT. Everything a step can do, said once: one constructor per branch, with the branch's condition and its next state. A proof about every
step takes cases on it and never unfolds `step`. -/

namespace Sys2Proof.Machine

/-- The state in which the command at the head of `rx_fifo` runs: the event chosen, the packet consumed, `rest` left. -/
def State.inRx (rest : List Packet) (s : State) : State := { s.afterChoice with rxFifo := rest, mlPhase := .poll }

/-- `StepCase s t`: one of the branches of a step takes `s` to `t`. -/
inductive StepCase (s : State) : State → Prop where
  | tick (he : s.nextEvent = .tick) (ho : s.qOvf = false) :
      StepCase s { s.afterChoice with tick := (s.tick + 1) % 2 ^ s.params.tickW }
  | tickOverflow (he : s.nextEvent = .tick) (ho : s.qOvf = true) :
      StepCase s (State.markerPush 0xC2 { s.afterChoice with tick := (s.tick + 1) % 2 ^ s.params.tickW, qOvf := false })
  | noEdge (he : s.nextEvent = .idxFall ∧ s.idxLine = false ∨ s.nextEvent = .idxRise ∧ s.idxLine = true) :
      StepCase s s.afterChoice
  | quietEdge (he : s.edgeNext) (hc : ¬s.captureNext) : StepCase s { s.afterChoice with idxLine := !s.idxLine }
  | captureFirst (he : s.edgeNext) (hc : s.captureNext) (hl : s.idxLatch = false) (hm : s.idxMode = .falling) :
      StepCase s (State.push 0xC3 { s.afterChoice with
        idxLine := !s.idxLine, idxLatch := true, revCount := (s.revCount + 1) % 2 ^ s.params.revW, idxMode := .both, armed := false })
  | captureOn (he : s.edgeNext) (hc : s.captureNext) (hl : s.idxLatch = false) (hm : s.idxMode = .both) :
      StepCase s (State.push 0xC3 { s.afterChoice with
        idxLine := !s.idxLine, idxLatch := true, revCount := (s.revCount + 1) % 2 ^ s.params.revW })
  | captureOff (he : s.edgeNext) (hc : s.captureNext) (hl : s.idxLatch = true) (hx : s.revCount ≤ s.revTarget.toNat) :
      StepCase s (State.push 0xC4 { s.afterChoice with idxLine := !s.idxLine, idxLatch := false })
  | captureLast (he : s.edgeNext) (hc : s.captureNext) (hl : s.idxLatch = true) (hx : s.revTarget.toNat < s.revCount) :
      StepCase s (State.push 0xC1 (State.push 0xC4 { s.afterChoice with
        idxLine := !s.idxLine, idxLatch := false, opState := .idle, armed := false, idxEn := false }))
  | hostSend (pkt : Packet) (he : s.nextEvent = .hostSend pkt) (hp : pkt.length ≤ 64) :
      StepCase s { s.afterChoice with rxFifo := s.rxFifo ++ [pkt] }
  | hostSendLong (pkt : Packet) (he : s.nextEvent = .hostSend pkt) (hp : 64 < pkt.length) : StepCase s s.afterChoice
  | hostAccept (v : Bool) (he : s.nextEvent = .hostAccept v) : StepCase s { s.afterChoice with txAccept := v }
  | setTrk0 (v : Bool) (he : s.nextEvent = .setTrk0 v) : StepCase s { s.afterChoice with trk0 := v }
  | setDisk (v : Bool) (he : s.nextEvent = .setDisk v) : StepCase s { s.afterChoice with diskPresent := v }
  | setWpt (v : Bool) (he : s.nextEvent = .setWpt v) : StepCase s { s.afterChoice with wpt := v }
  | drainNone (hm : s.mainNext .drain) (hp : s.qPend.toNat ≤ 64) : StepCase s { s.afterChoice with mlPhase := .rx }
  | drainHold (hm : s.mainNext .drain) (hp : 64 < s.qPend.toNat) (ha : s.txAccept = false) : StepCase s s.afterChoice
  | drainSend (hm : s.mainNext .drain) (hp : 64 < s.qPend.toNat) (ha : s.txAccept = true) :
      StepCase s { s.afterChoice with
        txLog := s.txLog ++ [Memory.readBlock s.qbuf s.drainBase 64], qPend := s.qPend - 64, mlPhase := .rx }
  | rxEmpty (hm : s.mainNext .rx) (hf : s.rxFifo = []) : StepCase s { s.afterChoice with mlPhase := .poll }
  | rxHold (hn : s.rxNext .handshake) (ha : s.txAccept = false) : StepCase s s.afterChoice
  | rxError (pkt : Packet) (rest : List Packet) (e : DecodeError) (hm : s.mainNext .rx) (hf : s.rxFifo = pkt :: rest)
      (hd : decode pkt = .error e) : StepCase s (s.inRx rest)
  | rxNothing (i : Instr) (pkt : Packet) (rest : List Packet) (hn : s.rxNext i) (hf : s.rxFifo = pkt :: rest)
      (hi : i = .halt ∨ i.wellFormed = false) : StepCase s (s.inRx rest)
  | rxSelectDrive (p : Byte) (d : DriveSel) (pkt : Packet) (rest : List Packet) (hn : s.rxNext (.selectDrive p))
      (hf : s.rxFifo = pkt :: rest) (hd : driveOperand p = some d) :
      StepCase s (State.push 0xC1 { s.inRx rest with driveSel := d })
  | rxHead (p : Byte) (b : Bool) (pkt : Packet) (rest : List Packet) (hn : s.rxNext (.head p))
      (hf : s.rxFifo = pkt :: rest) (hd : sideOperand p = some b) :
      StepCase s (State.push 0xC1 { s.inRx rest with head := b })
  | rxSeekAtTrack0 (pkt : Packet) (rest : List Packet) (hn : s.rxNext (.cylinder 0))
      (hf : s.rxFifo = pkt :: rest) (h0 : s.trk0 = true) :
      StepCase s (State.push 0xC1 { (s.inRx rest).cancel with tgtCyl := 0, curCyl := 0 })
  | rxSeekHere (c : Byte) (pkt : Packet) (rest : List Packet) (hn : s.rxNext (.cylinder c))
      (hf : s.rxFifo = pkt :: rest) (hle : c.toNat ≤ 79) (h0 : c ≠ 0) (hc : c = s.curCyl) :
      StepCase s (State.push 0xC1 { (s.inRx rest).cancel with tgtCyl := c })
  | rxSeekHome (pkt : Packet) (rest : List Packet) (hn : s.rxNext (.cylinder 0))
      (hf : s.rxFifo = pkt :: rest) (h0 : s.trk0 = false) :
      StepCase s (State.arm .stepPulseLow s.params.stepFirstDelay
        { (s.inRx rest).cancel with tgtCyl := 0, dir := .outward, stepN := false })
  | rxSeekAway (c : Byte) (pkt : Packet) (rest : List Packet) (hn : s.rxNext (.cylinder c))
      (hf : s.rxFifo = pkt :: rest) (hle : c.toNat ≤ 79) (h0 : c ≠ 0) (hc : c ≠ s.curCyl) :
      StepCase s (State.arm .stepPulseLow s.params.stepFirstDelay { (s.inRx rest).cancel with
        tgtCyl := c, dir := if s.curCyl.toNat < c.toNat then .inward else .outward, stepN := false })
  | rxCheckDisk (pkt : Packet) (rest : List Packet) (hn : s.rxNext .checkDisk) (hf : s.rxFifo = pkt :: rest) :
      StepCase s (State.push (if s.diskPresent then 0xC6 else 0xC5) (s.inRx rest))
  | rxMotorOff (pkt : Packet) (rest : List Packet) (hn : s.rxNext (.motor 0)) (hf : s.rxFifo = pkt :: rest) :
      StepCase s (State.push 0xC1 ((s.inRx rest).setMotor false))
  | rxMotorOn (v : Byte) (pkt : Packet) (rest : List Packet) (hn : s.rxNext (.motor v)) (hf : s.rxFifo = pkt :: rest)
      (hv : v ≠ 0) : StepCase s (State.arm .spinningUp s.params.spinupDelay ((s.inRx rest).cancel.setMotor true))
  | rxRead (i : Instr) (n : Byte) (pkt : Packet) (rest : List Packet) (hn : s.rxNext i)
      (hi : i = .read ∧ n = 1 ∨ i = .readMulti n) (hf : s.rxFifo = pkt :: rest) : StepCase s ((s.inRx rest).startRead n)
  | rxHandshake (pkt : Packet) (rest : List Packet) (hn : s.rxNext .handshake) (hf : s.rxFifo = pkt :: rest)
      (ha : s.txAccept = true) : StepCase s ((s.inRx rest).sendPacket handshakePacket)
  | pollNone (hm : s.mainNext .poll) (hw : s.wakes = false) : StepCase s { s.afterChoice with mlPhase := .drain }
  | pulseTrack0 (hw : s.wakeNext) (ho : s.opState = .stepPulseLow) (h0 : s.tgtCyl = 0 ∧ s.trk0 = true) :
      StepCase s (State.arm .stepSettle s.params.settleDelay
        { s.afterChoice.completePulse with mlPhase := .drain, curCyl := 0 })
  | pulseArrived (hw : s.wakeNext) (ho : s.opState = .stepPulseLow) (h0 : ¬(s.tgtCyl = 0 ∧ s.trk0 = true))
      (hc : cylinderAfterPulse s.dir s.curCyl = s.tgtCyl) :
      StepCase s (State.arm .stepSettle s.params.settleDelay
        { s.afterChoice.completePulse with mlPhase := .drain, curCyl := cylinderAfterPulse s.dir s.curCyl })
  | pulseOnward (hw : s.wakeNext) (ho : s.opState = .stepPulseLow) (h0 : ¬(s.tgtCyl = 0 ∧ s.trk0 = true))
      (hc : cylinderAfterPulse s.dir s.curCyl ≠ s.tgtCyl) :
      StepCase s (State.arm .stepPulseLow s.params.stepPeriod { s.afterChoice.completePulse with
        mlPhase := .drain, curCyl := cylinderAfterPulse s.dir s.curCyl, stepN := false })
  | settled (hw : s.wakeNext) (ho : s.opState = .stepSettle) :
      StepCase s (State.push 0xC1 (State.goIdle { s.afterChoice with mlPhase := .drain, dir := .outward }))
  | spunUp (hw : s.wakeNext) (ho : s.opState = .spinningUp) :
      StepCase s (State.push 0xC1 (State.goIdle { s.afterChoice with mlPhase := .drain }))
  | timedOut (hw : s.wakeNext) (ho : s.opState = .reading) :
      StepCase s (State.push 0xC8 (State.goIdle { s.afterChoice with mlPhase := .drain, idxEn := false }))

theorem StepCase.cast {s t u : State} (h : StepCase s u) (e : t = u) : StepCase s t := e ▸ h

/-- The RX steps. -/
theorem stepCase_rx {s : State} (hm : s.mainNext .rx) : StepCase s (rxEffect s.afterChoice) := by
  rcases rxEffect_cases s.afterChoice with ⟨hf, e⟩ | ⟨pkt, rest, hf, hd, ha, e⟩ | ⟨pkt, rest, x, hf, hd, e⟩ |
    ⟨pkt, rest, i, hf, hd, hh, e⟩ <;> rw [e]
  · exact .rxEmpty hm hf
  · exact .rxHold ⟨hm, pkt, rest, hf, hd⟩ ha
  · exact .rxError pkt rest x hm hf hd
  · have hn : s.rxNext i := ⟨hm, pkt, rest, hf, hd⟩
    cases i with
    | halt => exact .rxNothing _ pkt rest hn hf (.inl rfl)
    | selectDrive p =>
      cases hp : driveOperand p with
      | some d => exact (StepCase.rxSelectDrive p d pkt rest hn hf hp).cast (by simp only [effect, hp]; rfl)
      | none =>
        refine (StepCase.rxNothing _ pkt rest hn hf (.inr ?_)).cast (by simp only [effect, hp]; rfl)
        by_contra h
        obtain ⟨d, h', -⟩ := driveOperand_of_le (p := p) (by simpa [Instr.wellFormed, BitVec.le_def] using h)
        simp [hp] at h'
    | head p =>
      cases hp : sideOperand p with
      | some b => exact (StepCase.rxHead p b pkt rest hn hf hp).cast (by simp only [effect, hp]; rfl)
      | none =>
        refine (StepCase.rxNothing _ pkt rest hn hf (.inr ?_)).cast (by simp only [effect, hp]; rfl)
        by_contra h
        simp [sideOperand_of_le (p := p) (by simpa [Instr.wellFormed, BitVec.le_def] using h)] at hp
    | cylinder c =>
      by_cases hc : c.toNat ≤ 79
      · rw [effect_cylinder_of_le hc]
        rcases seek_cases c ({ s.afterChoice with rxFifo := rest } : State) with ⟨rfl, h0, e⟩ | ⟨h0, h, e⟩ | ⟨rfl, h0, e⟩ | ⟨h0, h, e⟩ <;>
          rw [e]
        · exact .rxSeekAtTrack0 pkt rest hn hf h0
        · exact .rxSeekHere c pkt rest hn hf hc h0 h
        · exact .rxSeekHome pkt rest hn hf h0
        · exact .rxSeekAway c pkt rest hn hf hc h0 h
      · rw [effect_cylinder_of_gt (by omega)]
        exact .rxNothing _ pkt rest hn hf (.inr (by simp [Instr.wellFormed, Config.cylMax, BitVec.le_def]; omega))
    | checkDisk =>
      refine (StepCase.rxCheckDisk pkt rest hn hf).cast ?_
      have hb : (if s.diskPresent then Response.diskLoaded else Response.noDisk).code = if s.diskPresent then 0xC6 else 0xC5 := by
        split <;> rfl
      rw [← hb]
      rfl
    | motor v =>
      by_cases hv : v = 0
      · subst hv; exact .rxMotorOff pkt rest hn hf
      · exact (StepCase.rxMotorOn v pkt rest hn hf hv).cast (by simp only [effect, if_neg hv]; rfl)
    | read => exact .rxRead _ 1 pkt rest hn (.inl ⟨rfl, rfl⟩) hf
    | readMulti n => exact .rxRead _ n pkt rest hn (.inr rfl) hf
    | handshake =>
      have ha : s.txAccept = true := hh rfl
      exact (StepCase.rxHandshake pkt rest hn hf ha).cast (by rw [effect_handshake (s := { s.afterChoice with rxFifo := rest }) ha]; rfl)

/-- The POLL steps, but for those of a state that holds STEP_PULSE_HIGH. -/
theorem stepCase_poll {s : State} (hm : s.mainNext .poll) (hp : s.opState ≠ .stepPulseHigh) :
    StepCase s s.afterChoice.pollPhase := by
  cases hw : s.wakes with
  | false => exact (StepCase.pollNone hm hw).cast (by rw [State.pollPhase, pollOnce_of_not_wakes (s := s.afterChoice) hw]; rfl)
  | true =>
    rw [State.pollPhase, pollOnce_of_wakes (s := s.afterChoice) hw]
    cases ho : s.opState with
    | idle => exact absurd ho ((wakes_iff s).1 hw).1
    | stepPulseHigh => exact absurd ho hp
    | stepPulseLow =>
      rw [wake_stepPulseLow (s := s.afterChoice) ho]
      by_cases h0 : s.tgtCyl = 0 ∧ s.trk0 = true
      · exact (StepCase.pulseTrack0 ⟨hm, hw⟩ ho h0).cast (by rw [wakeStepPulseLow_track0 (s := s.afterChoice) h0]; rfl)
      · by_cases hc : cylinderAfterPulse s.dir s.curCyl = s.tgtCyl
        · exact (StepCase.pulseArrived ⟨hm, hw⟩ ho h0 hc).cast
            (by rw [wakeStepPulseLow_arrived (s := s.afterChoice) h0 hc]; rfl)
        · exact (StepCase.pulseOnward ⟨hm, hw⟩ ho h0 hc).cast
            (by rw [wakeStepPulseLow_onward (s := s.afterChoice) h0 hc]; rfl)
    | stepSettle => rw [wake_stepSettle (s := s.afterChoice) ho]; exact .settled ⟨hm, hw⟩ ho
    | spinningUp => rw [wake_spinningUp (s := s.afterChoice) ho]; exact .spunUp ⟨hm, hw⟩ ho
    | reading => rw [wake_reading (s := s.afterChoice) ho]; exact .timedOut ⟨hm, hw⟩ ho

/-- An edge that qualifies. -/
theorem stepCase_capture {s : State} (he : s.edgeNext) (hc : s.captureNext) :
    StepCase s (State.capture { s.afterChoice with idxLine := !s.idxLine }) := by
  rcases capture_cases ({ s.afterChoice with idxLine := !s.idxLine } : State) with ⟨hl, h, e⟩ | ⟨hl, h, e⟩ | ⟨hl, h, e⟩ | ⟨hl, h, e⟩ <;>
    rw [e]
  · exact .captureFirst he hc hl h
  · exact .captureOn he hc hl h
  · exact .captureOff he hc hl h
  · exact .captureLast he hc hl h

/-- Every step is one of the branches. -/
theorem stepCase_of_step {s t : State} (h : step s = .next t) : StepCase s t := by
  obtain ⟨hr, rfl⟩ := step_next_iff.1 h
  have hp := ((refusal_none_iff s).1 hr).2
  cases he : s.nextEvent with
  | tick =>
    cases ho : s.qOvf with
    | false => exact (StepCase.tick he ho).cast (tickStep_quiet (s := s.afterChoice) ho)
    | true => exact (StepCase.tickOverflow he ho).cast (tickStep_overflow (s := s.afterChoice) ho)
  | idxFall =>
    rcases idxFall_cases s.afterChoice with ⟨hl, e⟩ | ⟨hl, hn, e⟩ | ⟨hl, hn, e⟩
    · exact (StepCase.noEdge (.inl ⟨he, hl⟩)).cast e
    · have hl' : s.idxLine = true := hl
      refine (StepCase.quietEdge (.inl ⟨he, hl⟩) ?_).cast (by rw [eventEffect, e, hl']; rfl)
      rintro ⟨h, -⟩
      exact absurd h (Bool.eq_false_iff.1 hn)
    · have hl' : s.idxLine = true := hl
      exact (stepCase_capture (.inl ⟨he, hl⟩) ⟨hn, .inl ⟨he, hl⟩⟩).cast (by rw [eventEffect, e, hl']; rfl)
  | idxRise =>
    rcases idxRise_cases s.afterChoice with ⟨hl, e⟩ | ⟨hl, hn, e⟩ | ⟨hl, hn, hb, e⟩
    · exact (StepCase.noEdge (.inr ⟨he, hl⟩)).cast e
    · have hl' : s.idxLine = false := hl
      refine (StepCase.quietEdge (.inr ⟨he, hl⟩) ?_).cast (by rw [eventEffect, e, hl']; rfl)
      rintro ⟨h, ⟨h', -⟩ | ⟨-, -, h'⟩⟩
      · simp [he] at h'
      · simp only [State.afterChoice_idxEn, State.afterChoice_idxMode, h, h'] at hn
        simp at hn
    · have hl' : s.idxLine = false := hl
      exact (stepCase_capture (.inr ⟨he, hl⟩) ⟨hn, .inr ⟨he, hl, hb⟩⟩).cast (by rw [eventEffect, e, hl']; rfl)
  | main =>
    cases hph : s.mlPhase with
    | drain =>
      have hm : s.mainNext .drain := ⟨he, hph⟩
      have e : eventEffect .main s.afterChoice = s.afterChoice.drainPhase := by
        simp only [eventEffect, mainEffect, State.afterChoice_mlPhase, hph]
      rcases drainPhase_cases s.afterChoice with ⟨h, e'⟩ | ⟨h, ha, e'⟩ | ⟨h, ha, e'⟩
      · exact (StepCase.drainNone hm h).cast (e.trans e')
      · exact (StepCase.drainHold hm h ha).cast (e.trans e')
      · exact (StepCase.drainSend hm h ha).cast (e.trans e')
    | rx =>
      have hm : s.mainNext .rx := ⟨he, hph⟩
      exact (stepCase_rx hm).cast (by simp only [eventEffect, mainEffect, State.afterChoice_mlPhase, hph])
    | poll =>
      have hm : s.mainNext .poll := ⟨he, hph⟩
      exact (stepCase_poll hm hp).cast (by simp only [eventEffect, mainEffect, State.afterChoice_mlPhase, hph])
  | hostSend pkt =>
    by_cases hl : pkt.length ≤ 64
    · exact (StepCase.hostSend pkt he hl).cast (by simp only [eventEffect, State.hostSend, Config.packetMax, hl, if_true, State.afterChoice_rxFifo])
    · exact (StepCase.hostSendLong pkt he (by omega)).cast (by simp only [eventEffect, State.hostSend, Config.packetMax, hl, if_false])
  | hostAccept v => exact .hostAccept v he
  | setTrk0 v => exact .setTrk0 v he
  | setDisk v => exact .setDisk v he
  | setWpt v => exact .setWpt v he

/-! ### What no step changes, and runs -/

theorem StepCase.params {s t : State} (h : StepCase s t) : t.params = s.params := by cases h <;> rfl

/-- A state the model runs from steps to a state it runs from. -/
theorem StepCase.refusal {s t : State} (h : StepCase s t) (hr : s.refusal = none) : t.refusal = none := by
  rw [refusal_none_iff] at hr ⊢
  refine ⟨h.params ▸ hr.1, ?_⟩
  cases h <;> first | exact hr.2 | exact OpState.noConfusion

/-- Only HOST changes whether it accepts. -/
theorem StepCase.txAccept {s t : State} (h : StepCase s t) (he : ∀ v, s.nextEvent ≠ .hostAccept v) : t.txAccept = s.txAccept := by
  cases h <;> first | rfl | exact absurd (by assumption) (he _)

/-- Every schedule has a run from every state the model runs from. -/
theorem exists_run (e : Nat → Event) (s : State) (hr : s.refusal = none) : ∃ r, r 0 = s ∧ IsRun e r := by
  let r : Nat → State := fun n => Nat.rec s (fun k u => eventEffect (e k) ({ u with agenda := [e k] } : State).afterChoice) n
  have hs : ∀ k, (r k).refusal = none → step { r k with agenda := [e k] } = .next (r (k + 1)) :=
    fun k h => step_event (s := { r k with agenda := [e k] }) (e := e k) h rfl
  have hr' : ∀ k, (r k).refusal = none := by
    intro k
    induction k with
    | zero => exact hr
    | succ k ih => exact (stepCase_of_step (hs k ih)).refusal (s := { r k with agenda := [e k] }) ih
  exact ⟨r, rfl, fun k => hs k (hr' k)⟩

end Sys2Proof.Machine
end

