-- ==== Sys2Proof/Laws/Queue.lean ====
section
/-! SUPPORT. The queue as a FIFO: what a push, a marker push and a drained block do to the unsent bytes. -/

namespace Sys2Proof.Machine

/-- The unsent bytes depend on the queue registers alone. -/
theorem State.Unsent.congr {s t : State} {l : List Byte} (h : s.Unsent l) (hb : t.qbuf = s.qbuf) (hw : t.qWr = s.qWr)
    (hp : t.qPend = s.qPend) : t.Unsent l := by
  unfold State.Unsent at h ⊢
  rwa [hb, hw, hp]

/-- A byte written at the cursor of a queue that it does not fill joins the unsent bytes at the end. -/
theorem State.Unsent.append {s t : State} {l : List Byte} {b : Byte} (h : s.Unsent l) (hl : l.length < 127) (hb : b ≠ Memory.unlisted)
    (hq : t.qbuf = Memory.write s.qbuf s.qWr.toNat b) (hw : t.qWr = s.qWr + 1) (hp : t.qPend = s.qPend + 1) : t.Unsent (l ++ [b]) := by
  obtain ⟨h1, -, h3, h4⟩ := h
  have hlt := s.qWr.isLt
  have hp' : t.qPend.toNat = l.length + 1 := by
    rw [hp, BitVec.toNat_add, ← h1, show BitVec.toNat (1 : BitVec 8) = 1 from rfl]; omega
  have hw' : t.qWr.toNat = (s.qWr.toNat + 1) % 128 := by
    rw [hw, BitVec.toNat_add, show BitVec.toNat (1 : BitVec 7) = 1 from rfl]
  rw [← h1] at h3
  refine ⟨by rw [hp', List.length_append, List.length_singleton], by rw [List.length_append, List.length_singleton]; omega,
    by rw [hp', hw']; omega, fun i hi => ?_⟩
  rw [List.length_append, List.length_singleton] at hi ⊢
  rw [hw', hq, Memory.read_write_of_ne hb]
  rcases Nat.lt_or_ge i l.length with h | h
  · rw [if_neg (by omega), List.getElem_append_left h, ← h4 i h]
    congr 1; omega
  · obtain rfl : i = l.length := by omega
    rw [if_pos (by omega), List.getElem_append_right (le_refl _)]
    simp

/-- `push` of a listed byte into a queue that it does not fill. -/
theorem State.Unsent.push {s : State} {l : List Byte} {b : Byte} (h : s.Unsent l) (hl : l.length < 127) (hb : b ≠ Memory.unlisted) :
    (s.push b).Unsent (l ++ [b]) := by
  refine h.append hl hb rfl rfl ?_
  have h1 := h.1
  simp only [State.push, State.queueFull, Config.qCap, beq_iff_eq]
  rw [if_neg (by omega)]

/-- `marker_push` of a listed byte into a queue that it does not fill. -/
theorem State.Unsent.markerPush {s : State} {l : List Byte} {b : Byte} (h : s.Unsent l) (hl : l.length < 127)
    (hb : b ≠ Memory.unlisted) : (s.markerPush b).Unsent (l ++ [b]) := by
  refine h.append hl hb rfl rfl ?_
  have h1 := h.1
  exact if_pos (show s.qPend.toNat < 128 by omega)

/-- The two places of the block that the writer is not in. -/
theorem State.drainBase_cases (s : State) : s.drainBase = 0 ∧ 64 ≤ s.qWr.toNat ∨ s.drainBase = 64 ∧ s.qWr.toNat < 64 := by
  unfold State.drainBase
  rcases Nat.lt_or_ge s.qWr.toNat 64 with h | h
  · exact .inr ⟨if_neg (show ¬64 ≤ s.qWr.toNat by omega), h⟩
  · exact .inl ⟨if_pos h, h⟩

/-- The block that a drain sends is the oldest 64 unsent bytes; the others stay. -/
theorem State.Unsent.drain {s t : State} {l : List Byte} (h : s.Unsent l) (hd : 64 < s.qPend.toNat) (hb : t.qbuf = s.qbuf)
    (hw : t.qWr = s.qWr) (hp : t.qPend = s.qPend - 64) :
    Memory.readBlock s.qbuf s.drainBase 64 = l.take 64 ∧ t.Unsent (l.drop 64) := by
  obtain ⟨h1, h2, h3, h4⟩ := h
  have hlt := s.qWr.isLt
  have hp' : t.qPend.toNat = l.length - 64 := by
    rw [hp, BitVec.toNat_sub, ← h1, show BitVec.toNat (64 : BitVec 8) = 64 from rfl]; omega
  have hbase := s.drainBase_cases
  refine ⟨?_, ?_⟩
  · apply List.ext_getElem
    · simp only [Memory.readBlock_length, List.length_take]; omega
    · intro i hi hi'
      rw [Memory.readBlock_length] at hi
      have := Memory.readBlock_getElem? s.qbuf s.drainBase 64 i hi
      rw [List.getElem?_eq_getElem (by simpa using hi), Option.some.injEq] at this
      rw [this, List.getElem_take, ← h4 i (by omega)]
      congr 1; omega
  · refine ⟨by rw [hp', List.length_drop], by rw [List.length_drop]; omega, by rw [hp', hw]; omega, fun i hi => ?_⟩
    rw [List.length_drop] at hi ⊢
    rw [hb, hw, List.getElem_drop, ← h4 (64 + i) (by omega)]
    congr 1; omega

end Sys2Proof.Machine
end

