-- ==== Sys2Proof/Laws/Time.lean ====
section
/-! SUPPORT. The modular difference of ticks and the due test. -/

namespace Sys2Proof.Machine

/-- The modular difference is the integer difference modulo 2^w. -/
theorem tickDiff_eq_emod (w a b : Nat) : (tickDiff w a b : Int) = ((a : Int) - b) % (2 ^ w : Int) := by
  have hb : b % 2 ^ w ≤ 2 ^ w := (Nat.mod_lt _ (Nat.two_pow_pos w)).le
  have h1 : (b : Int) = b % 2 ^ w + 2 ^ w * (b / 2 ^ w) := (Int.emod_add_mul_ediv _ _).symm
  rw [tickDiff, Int.natCast_emod, Nat.cast_add, Nat.cast_sub hb]
  push_cast
  rw [h1, Int.emod_eq_emod_iff_emod_sub_eq_zero]
  apply Int.emod_eq_zero_of_dvd
  refine ⟨1 + b / 2 ^ w, ?_⟩
  rw [Int.add_mul_emod_self_left, Int.emod_emod_of_dvd _ (dvd_refl _)]
  ring

theorem tickDiff_lt (w a b : Nat) : tickDiff w a b < 2 ^ w := Nat.mod_lt _ (Nat.two_pow_pos w)

/-- Measured from `b`, a tick `k < 2^w` later has difference `k`. -/
theorem tickDiff_add (w b k : Nat) (hk : k < 2 ^ w) : tickDiff w ((b + k) % 2 ^ w) b = k := by
  have h : (tickDiff w ((b + k) % 2 ^ w) b : Int) = k := by
    rw [tickDiff_eq_emod]
    push_cast
    rw [Int.emod_sub_emod, add_sub_cancel_left]
    exact_mod_cast Nat.mod_eq_of_lt hk
  exact_mod_cast h

/-- A tick is its difference after `b`. -/
theorem tickDiff_spec {w a b : Nat} (ha : a < 2 ^ w) : (b + tickDiff w a b) % 2 ^ w = a := by
  have h : (((b + tickDiff w a b) % 2 ^ w : Nat) : Int) = a := by
    push_cast
    rw [tickDiff_eq_emod, Int.add_emod_emod, add_sub_cancel]
    exact_mod_cast Nat.mod_eq_of_lt ha
  exact_mod_cast h

/-- Before a wake `d` ticks ahead, the difference wraps: `j` ticks after arming it is `2^w - (d - j)`. -/
theorem tickDiff_before {w t d j : Nat} (hj : j < d) (hd : d ≤ 2 ^ w) :
    tickDiff w ((t + j) % 2 ^ w) ((t + d) % 2 ^ w) = 2 ^ w - (d - j) := by
  have h : (tickDiff w ((t + j) % 2 ^ w) ((t + d) % 2 ^ w) : Int) = (2 ^ w - (d - j) : Nat) := by
    rw [tickDiff_eq_emod]
    push_cast
    rw [← Int.sub_emod]
    have e : (t : Int) + j - (t + d) = ((2 ^ w - (d - j) : Nat) : Int) - 2 ^ w := by
      rw [Nat.cast_sub (by omega), Nat.cast_sub (by omega)]; push_cast; ring
    rw [e, Int.sub_emod_right]
    exact_mod_cast Nat.mod_eq_of_lt (by omega)
  exact_mod_cast h

/-- What the model's test on parameters says. -/
theorem Params.valid_iff (p : Params) : Params.valid p = true ↔
    2 ≤ p.tickW ∧ 1 ≤ p.lateBound ∧ p.lateBound ≤ 2 ^ (p.tickW - 1) ∧
      ∀ d ∈ p.delays, 1 ≤ d ∧ d ≤ 2 ^ p.tickW - p.lateBound := by
  simp [Params.valid, Config.qCap, Config.qBlock, and_assoc]

/-- The lateness bound is at most half the range, so a window never covers it. -/
theorem Params.valid.lateBound_lt {p : Params} (h : Params.valid p = true) : p.lateBound < 2 ^ p.tickW := by
  obtain ⟨h1, -, h2, -⟩ := (Params.valid_iff p).1 h
  exact h2.trans_lt (Nat.pow_lt_pow_right (by norm_num) (by omega))

theorem State.due_iff (s : State) : s.due = true ↔ tickDiff s.params.tickW s.tick s.sched < s.params.lateBound := by
  simp [State.due]

end Sys2Proof.Machine
end

