-- ==== Sys2Proof/Tests/Slice0.lean ====
section
/-! SUPPORT. Small tests: ill-formed frames, frames written out bit by bit from R83, single steps against the vectors of
95_test_vectors.md, and a witness for the premises of every statement that has some. -/

namespace Sys2Proof.Tests

open Sys2Proof.Machine

/-! ### Helpers -/

/-- A view of the next state, or nothing when the outcome is a stop. -/
def after {α : Type} (o : Host.Outcome State Fault Refusal) (view : State → α) : Option α :=
  match o with
  | .next s => some (view s)
  | .fault _ => none
  | .refused _ => none

/-- `s` with event `e` next. -/
def on (e : Event) (s : State) : State := { s with agenda := [e] }

/-- `s` with MAIN's RX step next and `pkt` at the head of the FIFO. -/
def rx (pkt : Packet) (s : State) : State := { s with agenda := [.main], mlPhase := .rx, rxFifo := [pkt] }

/-- `s` with MAIN's DRAIN step next, `n` bytes pending and the cursor at `w`. -/
def draining (n : BitVec 8) (w : BitVec 7) (s : State) : State := { s with agenda := [.main], qPend := n, qWr := w }

/-- `s` with MAIN's POLL step next, in operation state `o`, its wake due at tick 500. -/
def waking (o : OpState) (s : State) : State :=
  { s with agenda := [.main], mlPhase := .poll, opState := o, armed := true, tick := 500, sched := 500 }

/-- `s` in an open read session before its first on-edge (the state of R160). -/
def session (s : State) : State := { s with opState := .reading, armed := true, sched := 10000, idxEn := true, revTarget := 1 }

/-! ### Well-formedness: each check refuses an ill-formed term (R83's legal ranges) -/

theorem test_wellFormed_selectDrive : (Instr.selectDrive 2).wellFormed = true ∧ (Instr.selectDrive 3).wellFormed = false := by decide
theorem test_wellFormed_cylinder : (Instr.cylinder 79).wellFormed = true ∧ (Instr.cylinder 80).wellFormed = false := by decide
theorem test_wellFormed_head : (Instr.head 1).wellFormed = true ∧ (Instr.head 2).wellFormed = false := by decide

/-! ### Decoding: every frame written out from R83's patterns (F[15:8] then F[7:0]) -/

theorem test_decode_halt : decodeTableWord 16 0b1010010100000000 = some .halt := by decide
theorem test_decode_selectDrive : decodeTableWord 16 0b0000001000000001 = some (.selectDrive 2) := by decide
theorem test_decode_cylinder : decodeTableWord 16 0b0010100000000010 = some (.cylinder 40) := by decide
theorem test_decode_head : decodeTableWord 16 0b0000000100000011 = some (.head 1) := by decide
theorem test_decode_checkDisk : decodeTableWord 16 0b1111111100000100 = some .checkDisk := by decide
theorem test_decode_motor : decodeTableWord 16 0b1000000100000101 = some (.motor 129) := by decide
theorem test_decode_read : decodeTableWord 16 0b0000011100000110 = some .read := by decide
theorem test_decode_readMulti : decodeTableWord 16 0b0110010000000111 = some (.readMulti 100) := by decide
theorem test_decode_handshake : decodeTableWord 16 0b0000000001101001 = some .handshake := by decide
/-- R84: the match is exact, so no other byte 0 selects a row. -/
theorem test_decode_unknown : decodeTableWord 16 0b0000000001101000 = none ∧ decodeTableWord 16 0b0000000000001000 = none := by decide
/-- R94: a missing parameter byte is not read as zero. -/
theorem test_decode_short : decode [0x01] = .error (.missingParameter 0x01) := by decide
/-- R86 and R89, the output encodings of a few codes. -/
theorem test_codes : Response.done.code = 0b11000001 ∧ Response.indexTimeout.code = 0b11001000 ∧ handshakePacket.length = 11 := by decide

/-! ### One step per command (95_test_vectors.md, the vector named) -/

/-- D2. -/
theorem test_selectDrive_two : after (step (rx [0x01, 0x02] .reset)) (fun s => (s.driveSel, s.lines.ds1, s.lines.ds2, s.qbuf, s.qPend)) =
    some (.drive2, false, true, [(0, 0xC1)], 1) := rfl
/-- D4. -/
theorem test_selectDrive_three : after (step (rx [0x01, 0x03] .reset)) (fun s => (s.driveSel, s.qPend, s.rxFifo)) =
    some (.none, 0, []) := by decide
/-- D5. -/
theorem test_head_one : after (step (rx [0x03, 0x01] .reset)) (fun s => (s.head, s.lines.side, s.qbuf)) =
    some (true, true, [(0, 0xC1)]) := by decide
/-- D7. -/
theorem test_head_two : after (step (rx [0x03, 0x02] .reset)) (fun s => (s.head, s.qPend)) = some (false, 0) := by decide
/-- S1. -/
theorem test_cylinder_start : after (step (rx [0x02, 40] { State.reset with curCyl := 0 }))
    (fun s => (s.tgtCyl, s.dir, s.stepN, s.opState, s.armed, s.sched)) = some (40, .inward, false, .stepPulseLow, true, 60) := by decide
/-- S3. -/
theorem test_cylinder_track0 : after (step (rx [0x02, 0] { State.reset with trk0 := true }))
    (fun s => (s.curCyl, s.opState, s.armed, s.pulses, s.qbuf)) = some (0, .idle, false, [], [(0, 0xC1)]) := rfl
/-- H4. -/
theorem test_checkDisk : after (step (rx [0x04] { State.reset with diskPresent := true })) State.qbuf = some [(0, 0xC6)] ∧
    after (step (rx [0x04] .reset)) State.qbuf = some [(0, 0xC5)] := by decide
/-- M1. -/
theorem test_motor_on : after (step (rx [0x05, 1] { State.reset with driveSel := .drive1 }))
    (fun s => (s.motorOn1, s.motorOn2, s.opState, s.armed, s.sched, s.qPend)) = some (true, false, .spinningUp, true, 10000, 0) := by decide
/-- M3. -/
theorem test_motor_off : after (step (rx [0x05, 0] { State.reset with driveSel := .drive1, motorOn1 := true }))
    (fun s => (s.motorOn1, s.opState, s.qbuf)) = some (false, .idle, [(0, 0xC1)]) := by decide
/-- H6. -/
theorem test_read : after (step (rx [0x06, 0x07] .reset)) (fun s => (s.opState, s.armed, s.sched, s.revTarget, s.idxEn, s.idxMode)) =
    some (.reading, true, 10000, 1, true, .falling) := by decide
/-- X3, its first step: every count is legal. -/
theorem test_readMulti : after (step (rx [0x07, 0xFF] { State.reset with revCount := 9, idxLatch := true }))
    (fun s => (s.revTarget, s.revCount, s.idxLatch)) = some (255, 0, false) := by decide
/-- H1. -/
theorem test_handshake : after (step (rx [0x69] { State.reset with opState := .spinningUp, armed := true, sched := 10000 }))
    (fun s => (s.txLog, s.opState, s.sched, s.qPend)) =
    some ([[0x46, 0x4C, 0x4F, 0x50, 0x50, 0x59, 0x54, 0x48, 0x49, 0x4E, 0x47]], .spinningUp, 10000, 0) := by decide
/-- H2: MAIN holds and the frame stays. -/
theorem test_handshake_hold : after (step (rx [0x69] { State.reset with txAccept := false })) (fun s => (s.txLog, s.rxFifo, s.mlPhase)) =
    some ([], [[0x69]], .rx) := by decide
/-- H5. -/
theorem test_halt : after (step (rx [0x00] .reset)) (fun s => (s.qPend, s.opState, s.rxFifo, s.mlPhase)) = some (0, .idle, [], .poll) := by
  decide

/-! ### One step per event -/

/-- T1: the counter wraps. -/
theorem test_tick_wrap : after (step (on .tick { State.reset with params := { Params.default with tickW := 8, lateBound := 1, spinupDelay := 9, readTimeout := 9 }, tick := 0xFF }))
    State.tick = some 0 := by decide
/-- T2. -/
theorem test_tick_overflow : after (step (on .tick { State.reset with qOvf := true, qPend := 40, qWr := 40 }))
    (fun s => (s.tick, s.qOvf, s.qbuf, s.qWr, s.qPend)) = some (1, false, [(40, 0xC2)], 41, 41) := by decide
/-- Q10, the first on-edge into a full queue. -/
theorem test_fall_first : after (step (on .idxFall (session { State.reset with qPend := 128 })))
    (fun s => (s.qbuf, s.qWr, s.qPend, s.qOvf, s.idxLine, s.idxLatch, s.idxMode, s.revCount, s.armed)) =
    some ([(0, 0xC3)], 1, 128, true, false, true, .both, 1, false) := rfl
/-- X2, the off-edge that ends a session; it keeps the `sched = 10000` of X1. -/
theorem test_rise_last : after (step (on .idxRise { session State.reset with
      armed := false, idxMode := .both, idxLatch := true, revCount := 1, revTarget := 0, idxLine := false }))
    (fun s => (s.opState, s.idxEn, s.idxLatch, s.idxLine, s.sched, s.qbuf)) =
    some (.idle, false, false, true, 10000, [(0, 0xC4), (1, 0xC1)]) := rfl
/-- Q5: the block the writer is not in. -/
theorem test_drain_block : after (step (draining 66 2 { State.reset with qbuf := [(0, 7), (64, 1), (127, 2)] }))
    (fun s => (s.txLog.map fun p => (p.length, p[0]?, p[63]?), s.qPend, s.mlPhase)) = some ([(64, some 1, some 2)], 2, .rx) := by decide
/-- E4a. -/
theorem test_pulse_track0 : after (step (waking .stepPulseLow { State.reset with curCyl := 37, stepN := false, trk0 := true }))
    (fun s => (s.stepN, s.curCyl, s.opState, s.sched, s.pulses)) = some (true, 0, .stepSettle, 700, [⟨.outward, 500⟩]) := by decide
/-- E4c. -/
theorem test_pulse_onward : after (step (waking .stepPulseLow { State.reset with tgtCyl := 40, curCyl := 10, dir := .inward, stepN := false }))
    (fun s => (s.stepN, s.curCyl, s.opState, s.sched, s.pulses)) = some (false, 11, .stepPulseLow, 560, [⟨.inward, 500⟩]) := by decide
/-- E4d. -/
theorem test_settled : after (step (waking .stepSettle { State.reset with dir := .inward }))
    (fun s => (s.dir, s.opState, s.armed, s.qbuf)) = some (.outward, .idle, false, [(0, 0xC1)]) := by decide
/-- X8. -/
theorem test_readTimeout : after (step (waking .reading (session .reset)))
    (fun s => (s.opState, s.armed, s.idxEn, s.qbuf)) = some (.idle, false, false, [(0, 0xC8)]) := by decide
/-- R129: the model refuses the state. -/
theorem test_refuses_stepPulseHigh : (State.refusal { State.reset with opState := .stepPulseHigh }) = some .stepPulseHighState := by decide

/-! ### Witnesses: concrete states and operands that meet the premises of the statements, one per clause -/

/-- ResetMeetsInvariant. -/
theorem witness_ResetMeetsInvariant : Params.valid Params.default = true ∧ Memory.wf [] = true ∧ Memory.wf [(0, 1), (127, 2)] = true := by
  decide
/-- DueWindow: the last tick of a window across the wrap, and the first after it. -/
theorem witness_DueWindow :
    let p : Params := { Params.default with tickW := 16, lateBound := 2 ^ 15 }
    let s : State := { State.reset with params := p, sched := 40000 }
    Params.valid p = true ∧ (40000 + 32767) % 2 ^ 16 < 2 ^ p.tickW ∧
      ({ s with tick := (40000 + 32767) % 2 ^ 16 } : State).due = true ∧
      ({ s with tick := (40000 + 32768) % 2 ^ 16 } : State).due = false := by decide
/-- ArmedWakeFirstDueAfterDelay: the least and the greatest legal delay. -/
theorem witness_ArmedWakeFirstDueAfterDelay :
    Params.valid State.reset.params = true ∧ 1 ≤ 1 ∧ 1 ≤ 2 ^ State.reset.params.tickW - State.reset.params.lateBound ∧
      1 ≤ 2 ^ 31 ∧ 2 ^ 31 ≤ 2 ^ State.reset.params.tickW - State.reset.params.lateBound := by decide
/-- PushAppendsOrOverwrites, below the full queue and at it. -/
theorem witness_PushAppendsOrOverwrites :
    Memory.wf State.reset.qbuf = true ∧ State.reset.queueFull = false ∧ ({ State.reset with qPend := 128 } : State).queueFull = true := by
  decide
/-- SelectDriveSetsDriveAndAnswersDone: the boundary of its two clauses. -/
theorem witness_SelectDrive : (2 : Byte).toNat ≤ 2 ∧ 2 < (3 : Byte).toNat := by decide
/-- HeadSetsSideAndAnswersDone: the boundary of its two clauses. -/
theorem witness_Head : (1 : Byte).toNat ≤ 1 ∧ 1 < (2 : Byte).toNat := by decide
/-- CylinderSeeksOrCompletesAtOnce: each clause at a boundary; no target is in two. -/
theorem witness_Cylinder :
    79 < (80 : Byte).toNat ∧ ({ State.reset with trk0 := true } : State).trk0 = true ∧ State.reset.trk0 = false ∧
      ((79 : Byte) ≠ 0 ∧ (79 : Byte).toNat ≤ 79 ∧ (79 : Byte) = ({ State.reset with curCyl := 79 } : State).curCyl) ∧
      ((79 : Byte) ≠ 0 ∧ (79 : Byte).toNat ≤ 79 ∧ ({ State.reset with curCyl := 78 } : State).curCyl.toNat < (79 : Byte).toNat) ∧
      ((1 : Byte) ≠ 0 ∧ (1 : Byte).toNat ≤ 79 ∧ (1 : Byte).toNat < State.reset.curCyl.toNat) := by decide
/-- MotorSwitchesSelectedDrive: both clauses. -/
theorem witness_Motor : (0 : Byte) = 0 ∧ (1 : Byte) ≠ 0 ∧ (255 : Byte) ≠ 0 := by decide
/-- HandshakeAnswersElevenBytes: a host that accepts, and a hold. -/
theorem witness_Handshake :
    let s := rx [0x69] { State.reset with txAccept := false }
    State.reset.txAccept = true ∧ s.refusal = none ∧ s.mainNext .rx ∧ s.rxFifo = [0x69] :: [] ∧ s.txAccept = false :=
  ⟨rfl, by decide, ⟨rfl, rfl⟩, rfl, rfl⟩
/-- HaltHasNoEffect, at the RX step. -/
theorem witness_Halt :
    let s := rx [0x00, 5] .reset
    s.refusal = none ∧ s.mainNext .rx ∧ s.rxFifo = [0x00, 5] :: [] := ⟨by decide, ⟨rfl, rfl⟩, rfl⟩
/-- OutOfRangeFramesDoNothing, in both clauses. -/
theorem witness_OutOfRange :
    let s := rx [0x02, 80] .reset
    (Instr.cylinder 80).wellFormed = false ∧ s.refusal = none ∧ s.mainNext .rx ∧ s.rxFifo = [0x02, 80] :: [] ∧
      decode [0x02, 80] = .ok (.cylinder 80) := ⟨by decide, by decide, ⟨rfl, rfl⟩, rfl, rfl⟩
/-- ImmediateCommandsKeepOperation. -/
theorem witness_ImmediateCommands :
    Instr.arming (.head 1) = false ∧ Instr.arming (.cylinder 80) = false ∧ Instr.arming (.motor 0) = false ∧
      ∃ t, exec (.head 1) State.reset = .next t := ⟨rfl, rfl, rfl, _, rfl⟩
/-- RxStepRunsDecodedFrame, with a frame that needs no host and with HANDSHAKE. -/
theorem witness_RxStep :
    let s := rx [0x02, 40, 9] .reset
    let h := rx [0x69] .reset
    s.refusal = none ∧ s.mainNext .rx ∧ s.rxFifo = [0x02, 40, 9] :: [] ∧ decode [0x02, 40, 9] = .ok (.cylinder 40) ∧
      h.refusal = none ∧ h.mainNext .rx ∧ h.rxFifo = [0x69] :: [] ∧ decode [0x69] = .ok .handshake ∧ h.txAccept = true :=
  ⟨by decide, ⟨rfl, rfl⟩, rfl, rfl, by decide, ⟨rfl, rfl⟩, rfl, rfl, rfl⟩
/-- FetchedWordRunsNext. -/
theorem witness_FetchedWord : State.reset.refusal = none ∧ decodeTableWord 16 0x2802 = some (.cylinder 40) := by decide
/-- BadPacketsConsumedWithoutEffect: the empty packet, the ends of both ranges of unknown opcodes, and a short packet. -/
theorem witness_BadPackets :
    let s := rx [] .reset
    s.refusal = none ∧ s.mainNext .rx ∧ s.rxFifo = [] :: [] ∧
      (0x08 ≤ (0x08 : Byte).toNat ∧ (0x68 : Byte).toNat ≤ 0x68 ∧ 0x6A ≤ (0x6A : Byte).toNat ∧ 0x6A ≤ (0xFF : Byte).toNat) ∧
      (0x07 : Byte) ∈ ([0x01, 0x02, 0x03, 0x05, 0x07] : List Byte) :=
  ⟨by decide, ⟨rfl, rfl⟩, rfl, by decide, by decide⟩
/-- EmptyFifoMovesToPoll. -/
theorem witness_EmptyFifo :
    let s : State := { State.reset with agenda := [.main], mlPhase := .rx }
    s.refusal = none ∧ s.mainNext .rx ∧ s.rxFifo = [] := ⟨by decide, ⟨rfl, rfl⟩, rfl⟩
/-- DrainSendsOneFullBlock: 64 and 65 bytes pending, and a host that does not accept. -/
theorem witness_Drain :
    let a := draining 64 64 .reset
    let b := draining 65 65 { State.reset with txAccept := false }
    let c := draining 65 65 .reset
    (a.refusal = none ∧ a.mainNext .drain ∧ a.qPend.toNat ≤ 64) ∧
      (b.refusal = none ∧ b.mainNext .drain ∧ 64 < b.qPend.toNat ∧ b.txAccept = false) ∧
      (c.refusal = none ∧ c.mainNext .drain ∧ 64 < c.qPend.toNat ∧ c.txAccept = true) :=
  ⟨⟨by decide, ⟨rfl, rfl⟩, by decide⟩, ⟨by decide, ⟨rfl, rfl⟩, by decide, rfl⟩, ⟨by decide, ⟨rfl, rfl⟩, by decide, rfl⟩⟩
/-- PollWithoutWakeDoesNothing: idle, disarmed, and one tick early. -/
theorem witness_PollWithoutWake :
    let a := waking .idle .reset
    let b := { waking .reading .reset with armed := false }
    let c := { waking .spinningUp .reset with sched := 501 }
    (a.refusal = none ∧ a.mainNext .poll ∧ a.opState = .idle) ∧ (b.refusal = none ∧ b.mainNext .poll ∧ b.armed = false) ∧
      (c.refusal = none ∧ c.mainNext .poll ∧ c.due = false) :=
  ⟨⟨by decide, ⟨rfl, rfl⟩, rfl⟩, ⟨by decide, ⟨rfl, rfl⟩, rfl⟩, ⟨by decide, ⟨rfl, rfl⟩, by decide⟩⟩
/-- PulseWakeMovesOneCylinder: track 0, arrived, onward. -/
theorem witness_PulseWake :
    let a := waking .stepPulseLow { State.reset with trk0 := true }
    let b := waking .stepPulseLow { State.reset with tgtCyl := 1, curCyl := 2 }
    let c := waking .stepPulseLow { State.reset with tgtCyl := 0, curCyl := 0 }
    a.refusal = none ∧ a.mainNext .poll ∧ a.opState = .stepPulseLow ∧ a.armed = true ∧ a.due = true ∧
      (a.tgtCyl = 0 ∧ a.trk0 = true) ∧ (¬(b.tgtCyl = 0 ∧ b.trk0 = true) ∧ b.curCyl - 1 = b.tgtCyl) ∧
      (¬(c.tgtCyl = 0 ∧ c.trk0 = true) ∧ c.curCyl - 1 ≠ c.tgtCyl) :=
  ⟨by decide, ⟨rfl, rfl⟩, rfl, rfl, by decide, by decide, by decide, by decide⟩
/-- FinalWakesAnswerAndEnd: each of the three operation states. -/
theorem witness_FinalWakes : ∀ o ∈ [OpState.stepSettle, OpState.spinningUp, OpState.reading],
    (waking o .reset).refusal = none ∧ ((waking o .reset).nextEvent = .main ∧ (waking o .reset).mlPhase = .poll) ∧
      (waking o .reset).armed = true ∧ (waking o .reset).due = true ∧ (waking o .reset).opState = o := by decide
/-- TickAdvancesAndSignalsOverflow: without and with an overflow, also into a full queue. -/
theorem witness_Tick : ∀ n ∈ [(0 : BitVec 8), 127, 128], ∀ o ∈ [true, false],
    (on .tick { State.reset with qOvf := o, qPend := n }).refusal = none ∧
      (on .tick { State.reset with qOvf := o, qPend := n }).nextEvent = .tick ∧
      (on .tick { State.reset with qOvf := o, qPend := n }).qOvf = o := by decide
/-- UnqualifiedEdgesOnlyMoveLine: the interrupt off, and a rise before the first on-edge. -/
theorem witness_UnqualifiedEdges :
    let a := on .idxFall .reset
    let b := on .idxRise (session { State.reset with idxLine := false })
    (a.refusal = none ∧ a.nextEvent = .idxFall ∧ a.idxLine = true ∧ a.idxEn = false) ∧
      (b.refusal = none ∧ b.nextEvent = .idxRise ∧ b.idxLine = false ∧ b.idxMode = .falling) := by decide
/-- ImpossibleMovesChangeNothing: each of its three cases. -/
theorem witness_ImpossibleMoves :
    let c := on .idxFall (session { State.reset with idxLine := false })
    let d := on .idxRise (session .reset)
    let e := on (.hostSend (List.replicate 65 0)) .reset
    (c.refusal = none ∧ c.nextEvent = .idxFall ∧ c.idxLine = false) ∧ (d.refusal = none ∧ d.nextEvent = .idxRise ∧ d.idxLine = true) ∧
      (e.refusal = none ∧ e.nextEvent = .hostSend (List.replicate 65 0) ∧ 64 < (List.replicate 65 (0 : Byte)).length) := by decide
/-- CaptureCountsAndEndsSession: the first on-edge, an off-edge at the target, and one past it. -/
theorem witness_Capture :
    let a := on .idxFall (session .reset)
    let b : State := on .idxRise { session State.reset with idxLine := false, idxMode := .both, idxLatch := true, revCount := 1 }
    let c : State := { b with revCount := 2 }
    (a.refusal = none ∧ a.captureNext ∧ a.idxLatch = false) ∧
      (b.refusal = none ∧ b.captureNext ∧ b.idxLatch = true ∧ b.revCount ≤ b.revTarget.toNat) ∧
      (c.refusal = none ∧ c.captureNext ∧ c.idxLatch = true ∧ c.revTarget.toNat < c.revCount) :=
  ⟨⟨by decide, ⟨rfl, .inl ⟨rfl, rfl⟩⟩, rfl⟩, ⟨by decide, ⟨rfl, .inr ⟨rfl, rfl, rfl⟩⟩, rfl, by decide⟩,
    ⟨by decide, ⟨rfl, .inr ⟨rfl, rfl, rfl⟩⟩, rfl, by decide⟩⟩
/-- HostAndSensorMovesSetInputs: a packet of 64 bytes, and the other moves. -/
theorem witness_HostAndSensorMoves :
    (∀ e ∈ [Event.hostSend (List.replicate 64 0), .hostAccept false, .setTrk0 true, .setDisk true, .setWpt true],
      (on e .reset).refusal = none ∧ (on e .reset).nextEvent = e) ∧ (List.replicate 64 (0 : Byte)).length ≤ 64 := by decide
/-- OnlyBadStartStatesStop: states on both sides. -/
theorem witness_OnlyBadStartStates :
    State.reset.refusal = none ∧ ({ State.reset with opState := .stepPulseHigh } : State).refusal = some .stepPulseHighState ∧
      ({ State.reset with params := { Params.default with stepPeriod := 0 } } : State).refusal = some .badConfiguration := by decide
/-- StepKeepsInvariant and OpStateMovesOnlyAlongEdges: a state that meets the invariant and steps. -/
theorem witness_Inv_step : (on .idxFall State.reset).Inv ∧ ∃ t, step (on .idxFall State.reset) = .next t :=
  ⟨by constructor <;> decide, _, step_of_refusal (by decide)⟩
/-- FieldsHaveOnlyTheirWriters: a step that meets the premise of every clause but those about a change of `q_ovf`. -/
theorem witness_FieldsHaveOnlyTheirWriters :
    let s := on (.setWpt true) .reset
    (∃ t, step s = .next t) ∧ s.nextEvent ≠ .tick ∧ s.nextEvent ≠ .main ∧ (∀ i, ¬s.rxNext i) ∧ ¬s.wakeNext ∧ ¬s.armingNext ∧
      ¬s.edgeNext ∧ ¬s.captureNext ∧ ¬s.pushNext ∧ ¬s.mainNext .drain ∧ ¬s.mainNext .rx ∧ (∀ pkt, s.nextEvent ≠ .hostSend pkt) ∧
      s.qPend.toNat ≤ 128 := by
  have hm : (on (.setWpt true) .reset).nextEvent ≠ .main := by decide
  have hf : (on (.setWpt true) .reset).nextEvent ≠ .idxFall := by decide
  have hr : (on (.setWpt true) .reset).nextEvent ≠ .idxRise := by decide
  have ht : (on (.setWpt true) .reset).nextEvent ≠ .tick := by decide
  have hc : ¬(on (.setWpt true) .reset).captureNext := fun h => h.2.elim (fun h => hf h.1) (fun h => hr h.1)
  exact ⟨⟨_, step_of_refusal (by decide)⟩, ht, hm, fun _ h => hm h.1.1, fun h => hm h.1.1, fun ⟨_, _, h⟩ => hm h.1.1,
    fun h => h.elim (fun h => hf h.1) (fun h => hr h.1), hc,
    fun h => h.elim (fun ⟨_, _, h⟩ => hm h.1.1) (fun h => h.elim (fun h => hm h.1.1.1) (fun h => h.elim (fun h => ht h.1) hc)),
    fun h => hm h.1, fun h => hm h.1, fun _ h => (nomatch h), by decide⟩
/-- FieldsHaveOnlyTheirWriters, the clauses about `q_ovf`: set by a push at 128 and by the second push of an edge at 127, cleared by TICK. -/
theorem witness_FieldsHaveOnlyTheirWriters_overflow :
    let a : State := on .idxFall (session { State.reset with qPend := 128 })
    let b : State := on .idxRise { session State.reset with
      idxLine := false, idxMode := .both, idxLatch := true, revCount := 2, qPend := 127, qWr := 127 }
    let c : State := on .tick { State.reset with qOvf := true }
    (a.qOvf = false ∧ after (step a) State.qOvf = some true) ∧ (b.qOvf = false ∧ after (step b) State.qOvf = some true) ∧
      (c.qOvf = true ∧ after (step c) State.qOvf = some false) := by decide
/-- FramesConsumedInOrder, StepPushesFewResponseBytes and WriteProtectNeverRead: any step; this one consumes a frame and pushes. -/
theorem witness_anyStep : ∃ t, step (rx [0x03, 1] .reset) = .next t := ⟨_, step_of_refusal (by decide)⟩
/-- OnlyBlocksAndHandshakesAreSent: a step that sends. -/
theorem witness_OnlyBlocksAndHandshakes : ∃ t, step (rx [0x69] .reset) = .next t ∧ t.txLog ≠ (rx [0x69] .reset).txLog := by
  refine ⟨_, step_of_refusal (by decide), ?_⟩
  decide
/-- SensorsReadOnlyWhereSampled: a step that meets the premises of both clauses, a seek to a cylinder other than 0. -/
theorem witness_SensorsReadOnlyWhereSampled :
    let s := rx [0x02, 40] .reset
    (∃ t, step s = .next t) ∧ ¬s.rxNext .checkDisk ∧ ¬s.rxNext (.cylinder 0) ∧ (∀ x, s.nextEvent ≠ .setDisk x) ∧
      ¬(s.wakeNext ∧ s.opState = .stepPulseLow ∧ s.tgtCyl = 0) ∧ (∀ x, s.nextEvent ≠ .setTrk0 x) := by
  have hf : (rx [0x02, 40] .reset).rxFifo = [0x02, 40] :: [] := rfl
  have hn : ∀ i, (rx [0x02, 40] .reset).rxNext i → i = .cylinder 40 := by
    rintro i ⟨-, pkt, rest, h, hd⟩
    rw [hf] at h
    injection h with h1 h2
    subst h1
    have : decode [0x02, 40] = .ok (.cylinder 40) := rfl
    rw [this] at hd
    injection hd with hd
    exact hd.symm
  exact ⟨⟨_, step_of_refusal (by decide)⟩, fun h => by simpa using hn _ h, fun h => by simpa using hn _ h, by decide,
    fun h => absurd h.2.1 (by decide), by decide⟩
/-- DisarmedSchedNeverRead: the ending off-edge of a session, and a command that arms a wake. -/
theorem witness_DisarmedSchedNeverRead :
    let a : State := on .idxRise { session State.reset with
      armed := false, idxMode := .both, idxLatch := true, revCount := 2, idxLine := false }
    let b := rx [0x05, 1] .reset
    (a.armed = false ∧ ∃ t, step a = .next t) ∧ (b.armed = false ∧ ∃ t, step b = .next t ∧ t.armed = true) :=
  ⟨⟨rfl, _, step_of_refusal (by decide)⟩, rfl, _, step_of_refusal (by decide), by decide⟩
/-- TickAndEdgeOrdersDifferOnlyInQueue, in both parts of its conclusion. -/
theorem witness_TickAndEdge :
    let s := session { State.reset with qPend := 126 }
    let o := session { State.reset with qOvf := true, qPend := 128 }
    (s.refusal = none ∧ s.qOvf = false ∧ s.qPend.toNat < 127) ∧ o.refusal = none := by decide
/-- QuiescenceIsSilent: an agenda of every other kind of event. -/
theorem witness_QuiescenceIsSilent :
    let s : State := { State.reset with agenda := [.tick, .idxFall, .main, .main, .main, .setTrk0 true, .hostAccept false], qPend := 64 }
    s.refusal = none ∧ s.Quiescent ∧ 7 ≤ s.agenda.length ∧ ∀ pkt, Event.hostSend pkt ∉ s.agenda :=
  ⟨by decide, ⟨rfl, rfl, rfl, rfl, by decide, rfl⟩, by decide, fun pkt => by simp⟩
/-- QueueIsFifoUntilFull: the steps that send the first 64 of 65 and of 127 unsent bytes, and a push at 126. -/
theorem witness_QueueIsFifoUntilFull :
    (∀ n ∈ [65, 127], (draining (BitVec.ofNat 8 n) (BitVec.ofNat 7 n) .reset).Unsent (List.replicate n 0) ∧
      ∃ t, step (draining (BitVec.ofNat 8 n) (BitVec.ofNat 7 n) .reset) = .next t ∧ t.qPend.toNat < 128) ∧
    (rx [0x03, 1] (draining 126 126 .reset)).Unsent (List.replicate 126 0) ∧
    ∃ t, step (rx [0x03, 1] (draining 126 126 .reset)) = .next t ∧ t.qPend.toNat < 128 := by
  have hz : ∀ (n i : Nat) (h : i < (List.replicate n (0 : Byte)).length) (a : Nat),
      Memory.read State.reset.qbuf a = (List.replicate n (0 : Byte))[i] := fun n i h a => by rw [List.getElem_replicate]; rfl
  refine ⟨fun n hn => ?_, ⟨by rw [List.length_replicate]; rfl, by rw [List.length_replicate]; decide, by decide, fun i h => hz _ _ h _⟩, _,
      step_of_refusal (by decide), by decide⟩
  rcases List.mem_cons.1 hn with rfl | hn
  · exact ⟨⟨by rw [List.length_replicate]; rfl, by rw [List.length_replicate]; decide, by decide, fun i h => hz _ _ h _⟩, _,
      step_of_refusal (by decide), by decide⟩
  · obtain rfl := List.mem_singleton.1 hn
    exact ⟨⟨by rw [List.length_replicate]; rfl, by rw [List.length_replicate]; decide, by decide, fun i h => hz _ _ h _⟩, _,
      step_of_refusal (by decide), by decide⟩
/-- ResetStorageNeverObserved: a run that goes on. -/
theorem witness_ResetStorageNeverObserved :
    ∃ t, Host.Core.run Sys2Proof.core 1 { State.resetWith Params.default true [(3, 7)] true false false false with agenda := [.tick] } = .next t :=
  ⟨_, rfl⟩
/-- SeekOnTimeTakesTheDistance: a seek inward, from the sentinel, and to 0 from 0. -/
theorem witness_SeekOnTime :
    ((79 : Byte).toNat ≤ 79 ∧ (79 : Byte) ≠ 0 ∧ (79 : Byte) ≠ 255 ∧ (0 : Byte).toNat ≤ 79) ∧
      ∀ c : Byte, let s : State := { State.reset with curCyl := c }
        s.trk0 = false ∧ s.refusal = none ∧ s.mlPhase = .drain ∧ s.rxFifo = [] ∧ s.qPend.toNat ≤ 64 ∧ s.qOvf = false ∧
          s.tick < 2 ^ s.params.tickW := by
  have hr : State.reset.refusal = none := by decide
  exact ⟨by decide, fun c => ⟨rfl, hr, rfl, rfl, (by decide : State.reset.qPend.toNat ≤ 64), rfl,
    (by decide : State.reset.tick < 2 ^ State.reset.params.tickW)⟩⟩
/-- SeekToZeroEndsAtZero: a known position, and a state on the way that takes a wake. -/
theorem witness_SeekToZero :
    let s : State := waking .stepPulseLow { State.reset with curCyl := 5, stepN := false, pulses := [⟨.outward, 1⟩, ⟨.outward, 2⟩] }
    (1 ≤ s.curCyl.toNat ∧ s.curCyl.toNat ≤ 79) ∧ s.Inv ∧ SeekZeroProgress 7 0 s ∧
      ¬s.armingNext ∧ s.wakeNext ∧ ∃ t, step s = .next t := by
  refine ⟨by decide, by constructor <;> decide, .inl (by decide), ?_, ⟨⟨rfl, rfl⟩, by decide⟩, _, step_of_refusal (by decide)⟩
  rintro ⟨i, -, ⟨-, h⟩, -⟩
  exact absurd h (by decide)
/-- SpinUpAndTimeoutLastTheirDelay. -/
theorem witness_SpinUpAndTimeout :
    State.reset.refusal = none ∧ State.reset.mlPhase = .drain ∧ State.reset.rxFifo = [] ∧ State.reset.qPend.toNat ≤ 64 ∧
      State.reset.qOvf = false ∧ State.reset.tick < 2 ^ State.reset.params.tickW ∧ (1 : Byte) ≠ 0 := by decide
/-- ReadSessionLastsTargetPlusOne, at the greatest count. -/
theorem witness_ReadSession :
    State.reset.refusal = none ∧ State.reset.idxLine = true ∧ (255 : Byte).toNat + 1 < 2 ^ State.reset.params.revW := by decide
/-- MainCyclesForEver: the schedule in which only MAIN moves. -/
theorem witness_MainCyclesForEver : ∃ r, IsRun (fun _ => Event.main) r ∧ MainWeaklyFair (fun _ => Event.main) r ∧ ∀ n, (r n).txAccept = true := by
  obtain ⟨r, h0, hr⟩ := exists_run (fun _ => Event.main) State.reset (by decide)
  refine ⟨r, hr, fun n _ => ⟨n, le_refl n, rfl⟩, fun n => ?_⟩
  induction n with
  | zero => rw [h0]; rfl
  | succ n ih => exact ((stepCase_of_step (hr n)).txAccept (by intro v h; cases h)).trans ih
/-- TickTakesEveryValueAgain: the schedule in which only TIMER moves. -/
theorem witness_TickTakesEveryValueAgain :
    ∃ r, IsRun (fun _ => Event.tick) r ∧ TimerFair (fun _ => Event.tick) ∧ (r 0).tick < 2 ^ (r 0).params.tickW := by
  obtain ⟨r, h0, hr⟩ := exists_run (fun _ => Event.tick) State.reset (by decide)
  exact ⟨r, hr, fun n => ⟨n, le_refl n, rfl⟩, by rw [h0]; decide⟩

end Sys2Proof.Tests
end

section
/-! PROOFS. The reset table (R52) and the output lines (R45). -/

namespace Sys2Proof.Machine

/-! ### The drive code and the select lines -/

theorem DriveSel.code_eq_one_iff (d : DriveSel) : d.code = 1 ↔ d = .drive1 := by cases d <;> decide

theorem DriveSel.code_eq_two_iff (d : DriveSel) : d.code = 2 ↔ d = .drive2 := by cases d <;> decide

/-- DS1 is asserted exactly while `drive_sel` holds drive 1's code (R25, R45). -/
theorem State.lines_ds1_iff (s : State) : s.lines.ds1 = true ↔ s.driveSel.code = 1 :=
  beq_iff_eq.trans s.driveSel.code_eq_one_iff.symm

/-- DS2 is asserted exactly while `drive_sel` holds drive 2's code (R25, R45). -/
theorem State.lines_ds2_iff (s : State) : s.lines.ds2 = true ↔ s.driveSel.code = 2 :=
  beq_iff_eq.trans s.driveSel.code_eq_two_iff.symm

/-- Settles O4: the select lines follow the drive code, and every other line is the field that R45 names. -/
theorem linesFollowState : Obligations.LinesFollowState := fun s =>
  ⟨s.lines_ds1_iff, s.lines_ds2_iff, rfl, rfl, rfl, rfl, rfl⟩

/-! ### The reset table -/

/-- `State.reset` takes the start state of 95_test_vectors.md for the values that R52 leaves open (log 4, log 5). -/
theorem State.reset_eq_resetWith : State.reset = State.resetWith Params.default true [] true false false false := rfl

/-- Settles O1: each row of R52 is one field of `State.resetWith`, and `State.reset` is one case of it. -/
theorem resetHoldsTheTableValues : Obligations.ResetHoldsTheTableValues := by
  intro p line acc t0 disk wpt m
  refine ⟨?tick, ?sched, ?armed, ?opState, ?driveSel, ?head, ?motorOn1, ?motorOn2, ?curCyl, ?tgtCyl, ?dir, ?stepN, ?idxEn, ?idxMode,
    ?idxLatch, ?revCount, ?revTarget, ?idxLine, ?qbuf, ?qWr, ?qPend, ?qOvf, ?mlPhase, ?rxFifo, ?resetIsOne⟩
  case resetIsOne => exact ⟨_, _, _, _, _, _, _, State.reset_eq_resetWith⟩
  all_goals rfl

end Sys2Proof.Machine
end

section
/-! PROOFS. Frames whose parameter is out of range (R83, R95). -/

namespace Sys2Proof.Machine

/-! ### The legal ranges -/

theorem wellFormed_selectDrive (p : Byte) : (Instr.selectDrive p).wellFormed = decide (p.toNat ≤ 2) := rfl

theorem wellFormed_cylinder (t : Byte) : (Instr.cylinder t).wellFormed = decide (t.toNat ≤ 79) := rfl

theorem wellFormed_head (p : Byte) : (Instr.head p).wellFormed = decide (p.toNat ≤ 1) := rfl

/-! ### The effect of a frame outside them -/

theorem effect_selectDrive_of_gt {p : Byte} (h : 2 < p.toNat) (s : State) : effect (.selectDrive p) s = s := by
  simp only [effect, driveOperand_of_gt h]

theorem effect_head_of_gt {p : Byte} (h : 1 < p.toNat) (s : State) : effect (.head p) s = s := by
  simp only [effect, sideOperand_of_gt h]

theorem effect_of_not_wellFormed {i : Instr} (h : i.wellFormed = false) (s : State) : effect i s = s := by
  cases i with
  | selectDrive p => exact effect_selectDrive_of_gt (by simpa [wellFormed_selectDrive] using h) s
  | cylinder t => exact effect_cylinder_of_gt (by simpa [wellFormed_cylinder] using h) s
  | head p => exact effect_head_of_gt (by simpa [wellFormed_head] using h) s
  | halt | checkDisk | motor _ | read | readMulti _ | handshake => cases h

/-! ### The RX step that consumes a frame -/

/-- The RX step of a frame that it does not hold: the command's effect in the state with the packet taken, then POLL (R203, R205). -/
theorem step_rx_ok {s : State} {pkt : Packet} {rest : List Packet} {i : Instr} (hr : s.refusal = none) (hm : s.mainNext .rx)
    (hf : s.rxFifo = pkt :: rest) (hd : decode pkt = .ok i) (hh : i = .handshake → s.txAccept = true) :
    step s = .next ((effect i { s.afterChoice with rxFifo := rest }).withPhase .poll) := by
  rw [step_rx hr hm, rxEffect_ok (s := s.afterChoice) hf hd hh]

/-- Settles O21: the guard of each of the three commands with a bounded parameter leaves the state alone outside its range, so the RX step
only takes the packet and goes on to POLL. A HANDSHAKE, which RX could hold, has no parameter and is always well formed. -/
theorem outOfRangeFramesDoNothing : Obligations.OutOfRangeFramesDoNothing := by
  refine ⟨fun i s hi => ?exec, fun i s pkt rest hi hr hm hf hd => ?rxStep,
    wellFormed_selectDrive, wellFormed_cylinder, wellFormed_head, fun _ => rfl, fun _ => rfl⟩
  case exec => rw [exec_eq, effect_of_not_wellFormed hi]
  case rxStep =>
    have notHandshake : i ≠ .handshake := by rintro rfl; cases hi
    rw [step_rx_ok hr hm hf hd (absurd · notHandshake), effect_of_not_wellFormed hi]
    rfl

end Sys2Proof.Machine
end

section
/-! PROOFS. The due test (R103) and the TICK step (R100, R184). -/

namespace Sys2Proof.Machine

/-! ### The due test -/

/-- Settles O8: the model's difference of naturals is the integer difference modulo 2^TICK_W. -/
theorem dueIsModularDifference : Obligations.DueIsModularDifference := fun s => by
  rw [s.due_iff, ← tickDiff_eq_emod, Nat.cast_lt]

/-! ### The marker -/

/-- `marker_push` of a listed byte stores it at the cursor and keeps every other byte of the queue storage (R183). -/
theorem State.read_markerPush {b : Byte} (hb : b ≠ Memory.unlisted) (s : State) (a : Nat) :
    Memory.read (s.markerPush b).qbuf a = if a = s.qWr.toNat then b else Memory.read s.qbuf a := by
  rw [State.markerPush_qbuf, Memory.read_write_of_ne hb]

/-! ### The TICK step -/

theorem step_tick_quiet {s : State} (hr : s.refusal = none) (he : s.nextEvent = .tick) (ho : s.qOvf = false) :
    step s = .next { s.afterChoice with tick := (s.tick + 1) % 2 ^ s.params.tickW } := by
  rw [step_event hr he, eventEffect, tickStep_quiet (s := s.afterChoice) ho]
  rfl

theorem step_tick_overflow {s : State} (hr : s.refusal = none) (he : s.nextEvent = .tick) (ho : s.qOvf = true) :
    step s = .next (State.markerPush Response.overflow.code
      { s.afterChoice with tick := (s.tick + 1) % 2 ^ s.params.tickW, qOvf := false }) := by
  rw [step_event hr he, eventEffect, tickStep_overflow (s := s.afterChoice) ho]
  rfl

/-- Settles O31: with `q_ovf` clear the detector does nothing after the counter advances; with it set, the one byte it queues is a listed
byte, so reading the storage back gives OVERFLOW at the cursor. -/
theorem tickAdvancesAndSignalsOverflow : Obligations.TickAdvancesAndSignalsOverflow := by
  refine fun s hr he => ⟨step_tick_quiet hr he, fun ho => ⟨_, step_tick_overflow hr he ho, ?stored, ?frame⟩⟩
  case stored => exact State.read_markerPush (Response.code_ne_unlisted .overflow) _
  case frame => rfl

end Sys2Proof.Machine
end

section
/-! PROOFS. The drive commands that answer at once, and MOTOR (R120, R121, R123). -/

namespace Sys2Proof.Machine

theorem effect_selectDrive_of_operand {p : Byte} {d : DriveSel} (h : driveOperand p = some d) (s : State) :
    effect (.selectDrive p) s = State.push Response.done.code { s with driveSel := d } := by
  simp only [effect, h]

theorem effect_head_of_le {p : Byte} (h : p.toNat ≤ 1) (s : State) :
    effect (.head p) s = State.push Response.done.code { s with head := p == 1 } := by
  simp only [effect, sideOperand_of_le h]

theorem effect_motor_off (s : State) : effect (.motor 0) s = State.push Response.done.code (s.setMotor false) := rfl

theorem effect_motor_on {v : Byte} (h : v ≠ 0) (s : State) :
    effect (.motor v) s = State.arm .spinningUp s.params.spinupDelay (s.cancel.setMotor true) := by
  simp only [effect, if_neg h]

/-- `push` of a response: no response code is the unlisted byte. -/
theorem pushedOnto_push_code (r : Response) (s : State) : PushedOnto r.code s (s.push r.code) :=
  pushedOnto_push (Response.code_ne_unlisted r) s

/-- Settles O12: up to 2 the operand names a drive, whose code is the parameter; above 2 it names none. -/
theorem selectDriveSetsDriveAndAnswersDone : Obligations.SelectDriveSetsDriveAndAnswersDone := by
  refine fun p s => ⟨rfl, fun hp => ?legal, fun hp => ?outOfRange⟩
  case legal =>
    obtain ⟨d, hd, hcode, hds1, hds2⟩ := driveOperand_of_le hp
    refine ⟨State.push Response.done.code { s with driveSel := d }, ?_, pushedOnto_push_code .done _, hcode, hds1, hds2⟩
    rw [exec_eq, effect_selectDrive_of_operand hd]
  case outOfRange => rw [exec_eq, effect_selectDrive_of_gt hp]

/-- Settles O13: up to 1 the parameter is the side, whatever side was selected; above 1 there is no operand. -/
theorem headSetsSideAndAnswersDone : Obligations.HeadSetsSideAndAnswersDone := by
  refine fun p s => ⟨rfl, fun hp => ?legal, fun hp => ?outOfRange⟩
  case legal => exact ⟨_, by rw [exec_eq, effect_head_of_le hp], pushedOnto_push_code .done _, rfl⟩
  case outOfRange => rw [exec_eq, effect_head_of_gt hp]

/-- Settles O15: off is one push on the state with the motor bit clear; on is `cancel`, the motor bit and `arm`, whose fields are those of
the statement. -/
theorem motorSwitchesSelectedDrive : Obligations.MotorSwitchesSelectedDrive := by
  refine fun v s => ⟨rfl, ?off, fun hv => ?on⟩
  case off =>
    rintro rfl
    exact ⟨_, by rw [exec_eq, effect_motor_off], pushedOnto_push_code .done (s.setMotor false), rfl, rfl⟩
  case on =>
    rw [exec_eq, effect_motor_on hv]
    rfl

end Sys2Proof.Machine
end

section
/-! PROOFS. The POLL step that services a wake (R124 to R128). -/

namespace Sys2Proof.Machine

/-- A POLL step whose wake condition holds does that wake's transition and goes on to DRAIN (R124, R204). -/
theorem step_poll_wake {s : State} (hr : s.refusal = none) (hm : s.mainNext .poll) (ho : s.opState ≠ .idle)
    (ha : s.armed = true) (hd : s.due = true) : step s = .next (s.afterChoice.wake.withPhase .drain) := by
  have wakes : s.afterChoice.wakes = true := (wakes_iff s.afterChoice).2 ⟨ho, ha, hd⟩
  rw [step_poll hr hm, State.pollPhase, pollOnce_of_wakes wakes]

/-! ### STEP_PULSE_LOW -/

theorem cylinderAfterPulse_eq_ite (d : Dir) (c : Byte) :
    cylinderAfterPulse d c = if d = .inward then c + 1 else c - 1 := by
  cases d <;> rfl

/-- `arm` while a wake is armed: `armed` stays (R104). -/
theorem arm_of_armed {s : State} (ha : s.armed = true) (o : OpState) (d : Nat) :
    s.arm o d = { s with opState := o, sched := (s.tick + d) % 2 ^ s.params.tickW } := by
  simp only [State.arm, ha]

/-- Starting the next pulse of a seek: the line goes low and the wake moves on (R125). -/
theorem startPulse_of_stepPulseLow {s : State} (ho : s.opState = .stepPulseLow) (ha : s.armed = true) (d : Nat) :
    s.startPulse d = { s with stepN := false, sched := (s.tick + d) % 2 ^ s.params.tickW } := by
  simp only [State.startPulse, State.arm, ho, ha]

/-- Settles O29: one clause for each outcome of the pulse wake. The wake is armed, so re-arming writes the operation state and `sched` only,
and the next pulse of the seek only the step line and `sched`. -/
theorem pulseWakeMovesOneCylinder : Obligations.PulseWakeMovesOneCylinder := by
  intro s hr hm ho ha hd
  dsimp only
  rw [step_poll_wake hr hm (by simp [ho]) ha hd, wake_stepPulseLow (s := s.afterChoice) ho, ← cylinderAfterPulse_eq_ite]
  refine ⟨fun atTrack0 => ?track0, fun away here => ?arrived, fun away there => ?onward⟩
  case track0 =>
    rw [wakeStepPulseLow_track0 (s := s.afterChoice) atTrack0, arm_of_armed (by exact ha)]
    rfl
  case arrived =>
    rw [wakeStepPulseLow_arrived (s := s.afterChoice) away here, arm_of_armed (by exact ha)]
    rfl
  case onward =>
    rw [wakeStepPulseLow_onward (s := s.afterChoice) away there, startPulse_of_stepPulseLow (by exact ho) (by exact ha)]
    rfl

/-! ### STEP_SETTLE, SPINNING_UP and READING -/

/-- A response pushed before `go_idle` and the change of phase is the same response pushed after both. -/
theorem pushedOnto_goIdle_withPhase (r : Response) (p : MlPhase) (s : State) :
    PushedOnto r.code (s.goIdle.withPhase p) ((State.respond r s).goIdle.withPhase p) :=
  pushedOnto_push_code r (s.goIdle.withPhase p)

/-- Settles O30: each of the three wakes is one response and `go_idle`, on the state with what else it writes. -/
theorem finalWakesAnswerAndEnd : Obligations.FinalWakesAnswerAndEnd := by
  intro s hr hm ha hd
  have wakeStep (ho : s.opState ≠ .idle) := step_poll_wake hr hm ho ha hd
  refine ⟨fun ho => ?settle, fun ho => ?spinUp, fun ho => ?timeout⟩
  case settle =>
    exact ⟨_, by rw [wakeStep (by simp [ho]), wake_stepSettle (s := s.afterChoice) ho]; rfl,
      pushedOnto_goIdle_withPhase .done .drain { s.afterChoice with dir := .outward }⟩
  case spinUp =>
    exact ⟨_, by rw [wakeStep (by simp [ho]), wake_spinningUp (s := s.afterChoice) ho]; rfl,
      pushedOnto_goIdle_withPhase .done .drain s.afterChoice⟩
  case timeout =>
    exact ⟨_, by rw [wakeStep (by simp [ho]), wake_reading (s := s.afterChoice) ho]; rfl,
      pushedOnto_goIdle_withPhase .indexTimeout .drain { s.afterChoice with idxEn := false }⟩

end Sys2Proof.Machine
end

section
/-! PROOFS. The read commands (R160, R161) and the index edges that do not qualify (R164, R169). -/

namespace Sys2Proof.Machine

/-! ### READ_MULTI and READ -/

/-- `start_read(count)` on the whole state: R160's pseudocode, with `cancel` and `arm` written out. -/
theorem State.startRead_eq (n : Byte) (s : State) :
    s.startRead n = { s with
      revTarget := n, revCount := 0, idxLatch := false, idxMode := .falling, idxEn := true, opState := .reading
      armed := true, sched := (s.tick + s.params.readTimeout) % 2 ^ s.params.tickW } := rfl

theorem exec_readMulti (n : Byte) (s : State) : exec (.readMulti n) s = .next (s.startRead n) := exec_eq (.readMulti n) s

theorem exec_read (s : State) : exec .read s = .next (s.startRead 1) := exec_eq .read s

/-- Settles O16: READ_MULTI is `start_read`; what `cancel` clears, the new session sets again, so no trace of it is left. -/
theorem readMultiOpensSession : Obligations.ReadMultiOpensSession := by
  refine fun n s => ⟨?packet, ?session⟩
  case packet => rfl
  case session => rw [exec_readMulti, State.startRead_eq]

/-- Settles O17: byte 0 selects READ, whose row needs no byte 1, and READ is `start_read(1)`. -/
theorem readIsReadMultiOne : Obligations.ReadIsReadMultiOne := by
  refine ⟨fun rest => ?decoded, fun s => ⟨?sameAsReadMulti, ?session⟩⟩
  case decoded => rfl
  case sameAsReadMulti => rw [exec_read, exec_readMulti]
  case session => rw [exec_read, State.startRead_eq]

/-! ### Edges that do not qualify -/

/-- A rise qualifies neither with the interrupt off nor in falling-only mode (R164). -/
theorem State.riseQualifies_eq_false {s : State} (h : s.idxEn = false ∨ s.idxMode = .falling) : s.riseQualifies = false := by
  rcases h with disabled | fallingOnly
  · simp [State.riseQualifies, disabled]
  · simp [State.riseQualifies, fallingOnly]

theorem idxFall_of_not_qualifies {s : State} (hl : s.idxLine = true) (hq : s.fallQualifies = false) :
    s.idxFall = { s with idxLine := false } := by
  simp only [State.idxFall, hl, hq, if_true, Bool.false_eq_true, if_false]

theorem idxRise_of_not_qualifies {s : State} (hl : s.idxLine = false) (hq : s.riseQualifies = false) :
    s.idxRise = { s with idxLine := true } := by
  simp only [State.idxRise, hl, hq, Bool.false_eq_true, if_false]

/-- Settles O32: neither edge qualifies, so the capture reaction is left out and only the line level is written. Choosing the event moves none
of the fields that the tests read. -/
theorem unqualifiedEdgesOnlyMoveLine : Obligations.UnqualifiedEdgesOnlyMoveLine := by
  refine fun s hr => ⟨fun he hl disabled => ?fall, fun he hl unqualified => ?rise⟩
  case fall =>
    have noFall : s.afterChoice.fallQualifies = false := disabled
    rw [step_event hr he, eventEffect, idxFall_of_not_qualifies (s := s.afterChoice) hl noFall]
  case rise =>
    have noRise : s.afterChoice.riseQualifies = false := State.riseQualifies_eq_false unqualified
    rw [step_event hr he, eventEffect, idxRise_of_not_qualifies (s := s.afterChoice) hl noRise]

end Sys2Proof.Machine
end

section
/-! PROOFS. The event queue: `push` (R181, R182) and the DRAIN step (R186, R188, R201). -/

namespace Sys2Proof.Machine

/-! ### push -/

/-- `push` of any byte, the unlisted one too: a canonical storage reads back what was written (R181, R182). -/
theorem pushedOnto_push_of_wf {s : State} (h : Memory.wf s.qbuf = true) (b : Byte) : PushedOnto b s (s.push b) := by
  refine ⟨fun a => ?stored, ?frame⟩
  case stored => rw [State.push_qbuf, Memory.read_write h]
  case frame => simp only [State.push, State.queueFull, Config.qCap, beq_iff_eq]

/-- The cursor has seven bits, so its increment is the one modulo `Q_CAP` (R181). -/
theorem State.push_qWr_toNat (b : Byte) (s : State) : (s.push b).qWr.toNat = (s.qWr.toNat + 1) % 128 :=
  BitVec.toNat_add s.qWr 1

/-- Settles O11: in a canonical storage a push is read back at the cursor only, and it keeps the storage canonical. -/
theorem pushAppendsOrOverwrites : Obligations.PushAppendsOrOverwrites := fun b s h =>
  ⟨pushedOnto_push_of_wf h b, s.push_qWr_toNat b, State.push_wf b h⟩

/-! ### The DRAIN step -/

theorem drainPhase_of_le {s : State} (h : s.qPend.toNat ≤ 64) : s.drainPhase = { s with mlPhase := .rx } := by
  rcases drainPhase_cases s with ⟨-, moves⟩ | ⟨more, -⟩ | ⟨more, -⟩
  · exact moves
  all_goals omega

theorem drainPhase_of_not_accept {s : State} (h : 64 < s.qPend.toNat) (ha : s.txAccept = false) : s.drainPhase = s := by
  rcases drainPhase_cases s with ⟨few, -⟩ | ⟨-, -, holds⟩ | ⟨-, accepts, -⟩
  · omega
  · exact holds
  · simp [ha] at accepts

theorem drainPhase_of_accept {s : State} (h : 64 < s.qPend.toNat) (ha : s.txAccept = true) :
    s.drainPhase = { s.drainBlock with mlPhase := .rx } := by
  rcases drainPhase_cases s with ⟨few, -⟩ | ⟨-, refuses, -⟩ | ⟨-, -, sends⟩
  · omega
  · simp [ha] at refuses
  · exact sends

/-- The block that a drain sends is the half of the storage that `q_wr` is not in (R188). -/
theorem State.drainBase_eq (s : State) : s.drainBase = if 64 ≤ s.qWr.toNat then 0 else 64 := rfl

/-- Settles O27: one clause for each branch of the DRAIN step. The block sent is read at `drainBase`, before the count drops. -/
theorem drainSendsOneFullBlock : Obligations.DrainSendsOneFullBlock := by
  intro s hr hm
  rw [step_drain hr hm]
  refine ⟨fun few => ?moves, fun more refuses => ?holds, fun more accepts => ?sends⟩
  case moves => rw [drainPhase_of_le (s := s.afterChoice) few]
  case holds => rw [drainPhase_of_not_accept (s := s.afterChoice) more refuses]
  case sends =>
    refine ⟨Memory.readBlock s.qbuf s.drainBase 64, ?step, Memory.readBlock_length _ _ _, fun i hi => ?bytes⟩
    case step =>
      rw [drainPhase_of_accept (s := s.afterChoice) more accepts]
      rfl
    case bytes => rw [Memory.readBlock_getElem? _ _ _ _ hi, s.drainBase_eq]

end Sys2Proof.Machine
end

section
/-! PROOFS. The commands of no other family, CHECK_DISK, HALT and HANDSHAKE (R206 to R208), and the packets that hold no command
(R85, R94, R209, R210). -/

namespace Sys2Proof.Machine

/-! ### What the RX step does with the packet at the head -/

/-- The RX step holds at a HANDSHAKE while the host does not accept: the packet stays at the head of `rx_fifo` (R203, R206). -/
theorem step_rx_hold {s : State} {pkt : Packet} {rest : List Packet} (hr : s.refusal = none) (hm : s.mainNext .rx)
    (hf : s.rxFifo = pkt :: rest) (hd : decode pkt = .ok .handshake) (ha : s.txAccept = false) : step s = .next s.afterChoice := by
  rw [step_rx hr hm, rxEffect_hold (s := s.afterChoice) hf ((holdsForReply_iff _ _).2 ⟨hd, ha⟩)]

/-- The RX step of a packet that holds no command: the packet is taken, and the phase goes on to POLL (R209, R210). -/
theorem step_rx_error {s : State} {pkt : Packet} {rest : List Packet} {e : DecodeError} (hr : s.refusal = none)
    (hm : s.mainNext .rx) (hf : s.rxFifo = pkt :: rest) (hd : decode pkt = .error e) :
    step s = .next { s.afterChoice with rxFifo := rest, mlPhase := .poll } := by
  rw [step_rx hr hm, rxEffect_error (s := s.afterChoice) hf hd]
  rfl

/-! ### CHECK_DISK, HALT and HANDSHAKE -/

/-- The response that CHECK_DISK queues (R207), by its code (R86). -/
theorem mediaResponse_code (present : Bool) :
    (if present then Response.diskLoaded else Response.noDisk).code = if present then 0xC6 else 0xC5 := by
  cases present <;> rfl

/-- Settles O18: CHECK_DISK is one push of the response that the disk-present input selects. -/
theorem checkDiskReportsMedia : Obligations.CheckDiskReportsMedia := by
  refine ⟨fun rest => ?packet, fun s => ⟨_, exec_eq .checkDisk s, ?pushed⟩⟩
  case packet => rfl
  case pushed =>
    rw [← mediaResponse_code]
    exact pushedOnto_push_code _ s

/-- Settles O19: HALT has the identity as its effect, so its RX step only takes the packet and goes on to POLL. -/
theorem haltHasNoEffect : Obligations.HaltHasNoEffect := by
  refine ⟨fun rest => ?packet, exec_eq .halt, fun s more fifo hr hm hf => ?rxStep⟩
  case packet => rfl
  case rxStep =>
    have hd : decode (0x00 :: more) = .ok .halt := rfl
    rw [step_rx_ok hr hm hf hd nofun]
    rfl

/-- Settles O20: an accepting host is sent the handshake packet; while the host does not accept, the RX step holds. -/
theorem handshakeAnswersElevenBytes : Obligations.HandshakeAnswersElevenBytes := by
  have decoded (rest : Packet) : decode (0x69 :: rest) = .ok .handshake := (decode_handshake_iff _).2 rfl
  refine ⟨decoded, fun s ha => ?accepts, fun s more fifo hr hm hf ha => ?holds⟩
  case accepts =>
    rw [exec_eq, effect_handshake ha]
    rfl
  case holds => exact step_rx_hold hr hm hf (decoded more) ha

/-! ### Packets that hold no command -/

/-- The bytes that select no row of the opcode table (R85). -/
theorem ofByte_eq_none_iff (b : Byte) :
    Opcode.ofByte b = none ↔ 0x08 ≤ b.toNat ∧ b.toNat ≤ 0x68 ∨ 0x6A ≤ b.toNat := by
  have noRow : Opcode.ofByte b = none ↔
      b ≠ 0 ∧ b ≠ 1 ∧ b ≠ 2 ∧ b ≠ 3 ∧ b ≠ 4 ∧ b ≠ 5 ∧ b ≠ 6 ∧ b ≠ 7 ∧ b ≠ 0x69 := by
    simp [Opcode.ofByte, ite_eq_iff]
  rw [noRow]
  bv_omega

theorem decode_unknownOpcode {b : Byte} (h : Opcode.ofByte b = none) (rest : Packet) :
    decode (b :: rest) = .error (.unknownOpcode b) := by
  simp only [decode, h]

/-- A 1-byte packet of a row that needs byte 1 holds no command (R94). -/
theorem decode_missingParameter {b : Byte} {o : Opcode} (h : Opcode.ofByte b = some o) (hn : o.needsByte1 = true) :
    decode [b] = .error (.missingParameter b) := by
  simp only [decode, h, hn, if_true]

/-- The five opcodes of the column "needs byte 1" (R83). -/
theorem exists_ofByte_needsByte1 {b : Byte} (h : b ∈ [0x01, 0x02, 0x03, 0x05, 0x07]) :
    ∃ o, Opcode.ofByte b = some o ∧ o.needsByte1 = true := by
  simp only [List.mem_cons, List.not_mem_nil, or_false] at h
  rcases h with rfl | rfl | rfl | rfl | rfl <;> exact ⟨_, rfl, rfl⟩

/-- Settles O25: the packets of the three kinds are rejected by the decoder, each for its own reason, and the RX step treats every rejected
packet alike. -/
theorem badPacketsConsumedWithoutEffect : Obligations.BadPacketsConsumedWithoutEffect := by
  intro s pkt rest hr hm hf bad
  obtain ⟨e, rejected⟩ : ∃ e, decode pkt = .error e := by
    rcases bad with rfl | ⟨b, more, rfl, unknown⟩ | ⟨b, rfl, short⟩
    · exact ⟨.emptyPacket, rfl⟩
    · exact ⟨_, decode_unknownOpcode ((ofByte_eq_none_iff b).2 unknown) more⟩
    · obtain ⟨o, selected, needs⟩ := exists_ofByte_needsByte1 short
      exact ⟨_, decode_missingParameter selected needs⟩
  exact step_rx_error hr hm hf rejected

end Sys2Proof.Machine
end

section
/-! PROOFS. Decoding and encoding agree (R80 to R85, R94). -/

namespace Sys2Proof.Machine

/-! ### The opcode column -/

/-- Byte 0 selects a row exactly when it is the row's opcode (R84). -/
theorem ofByte_eq_some_iff (b : Byte) (o : Opcode) : Opcode.ofByte b = some o ↔ b = o.code := by
  constructor
  · intro h
    simp only [Opcode.ofByte] at h
    split_ifs at h with h0 h1 h2 h3 h4 h5 h6 h7 h69 <;> cases h <;> assumption
  · rintro rfl
    cases o <;> rfl

/-- The shortest packet of a row: its opcode, and byte 1 where the row needs it (R83, R90). -/
theorem encode_frame (o : Opcode) (p : Byte) : encode (o.frame p) = o.code :: if o.needsByte1 then [p] else [] := by
  cases o <;> rfl

/-! ### Decoding -/

/-- Everything the decoder can answer: one case for each reason to reject, and a frame whose bytes the packet begins with. -/
theorem decode_cases (pkt : Packet) :
    (pkt = [] ∧ decode pkt = .error .emptyPacket) ∨
    (∃ b rest, pkt = b :: rest ∧ Opcode.ofByte b = none ∧ decode pkt = .error (.unknownOpcode b)) ∨
    (∃ o : Opcode, pkt = [o.code] ∧ o.needsByte1 = true ∧ decode pkt = .error (.missingParameter o.code)) ∨
    (∃ i, encode i <+: pkt ∧ decode pkt = .ok i) := by
  rcases pkt with _ | ⟨b, rest⟩
  · exact .inl ⟨rfl, rfl⟩
  refine .inr ?_
  cases hb : Opcode.ofByte b with
  | none => exact .inl ⟨b, rest, rfl, hb, decode_unknownOpcode hb rest⟩
  | some o =>
    refine .inr ?_
    obtain rfl := (ofByte_eq_some_iff b o).1 hb
    cases hn : o.needsByte1 with
    | false => exact .inr ⟨o.frame 0, by simp [encode_frame, hn], by simp [decode, hb, hn]⟩
    | true =>
      rcases rest with _ | ⟨b1, more⟩
      · exact .inl ⟨o, rfl, hn, decode_missingParameter hb hn⟩
      · exact .inr ⟨o.frame b1, by simp [encode_frame, hn], by simp [decode, hb, hn]⟩

/-- What follows a frame in its packet is ignored (R80). -/
theorem decode_encode_append (i : Instr) (more : Packet) : decode (encode i ++ more) = .ok i := by
  cases i <;> rfl

/-- Settles O6: the decoder answers only frames whose bytes begin the packet, and it reads back every frame from a packet that begins with
its bytes. -/
theorem packetCarriesFrameIffItBeginsWithIt : Obligations.PacketCarriesFrameIffItBeginsWithIt := by
  intro pkt i
  constructor
  · intro h
    rcases decode_cases pkt with ⟨-, e⟩ | ⟨b, rest, -, -, e⟩ | ⟨o, -, -, e⟩ | ⟨j, hj, e⟩ <;> rw [e] at h <;> cases h
    exact hj
  · rintro ⟨more, rfl⟩
    exact decode_encode_append i more

/-! ### Rejected packets -/

theorem needsByte1_iff (o : Opcode) : o.needsByte1 = true ↔ o.code ∈ ([0x01, 0x02, 0x03, 0x05, 0x07] : List Byte) := by
  cases o <;> decide

/-- Settles O7: the three rejecting cases of the decoder exclude each other, so each reason tells its case; the opcode column and its "needs
byte 1" give the bounds. -/
theorem packetsWithoutFrame : Obligations.PacketsWithoutFrame := by
  refine ⟨fun pkt => ⟨fun h => ?empty, ?_⟩, fun pkt b => ⟨fun h => ?unknown, ?_⟩, fun pkt b => ⟨fun h => ?short, ?_⟩⟩
  case empty =>
    rcases decode_cases pkt with ⟨e, -⟩ | ⟨b, rest, -, -, e⟩ | ⟨o, -, -, e⟩ | ⟨j, -, e⟩
    · exact e
    all_goals rw [e] at h; cases h
  case unknown =>
    rcases decode_cases pkt with ⟨-, e⟩ | ⟨b, rest, rfl, hb, e⟩ | ⟨o, -, -, e⟩ | ⟨j, -, e⟩ <;> rw [e] at h <;> cases h
    have outside := (ofByte_eq_none_iff b).1 hb
    exact ⟨rfl, by omega, by rintro rfl; simp at outside⟩
  case short =>
    rcases decode_cases pkt with ⟨-, e⟩ | ⟨b, rest, -, -, e⟩ | ⟨o, rfl, hn, e⟩ | ⟨j, -, e⟩ <;> rw [e] at h <;> cases h
    exact ⟨rfl, (needsByte1_iff o).1 hn⟩
  · rintro rfl
    rfl
  · rintro ⟨first, hi, hne⟩
    obtain ⟨rest, rfl⟩ := List.head?_eq_some_iff.1 first
    exact decode_unknownOpcode ((ofByte_eq_none_iff b).2 (by bv_omega)) rest
  · rintro ⟨rfl, hmem⟩
    obtain ⟨o, selected, needs⟩ := exists_ofByte_needsByte1 hmem
    exact decode_missingParameter selected needs

/-- Settles O5: each packet is written with the bytes of its frame first, and the decoder computes. -/
theorem writtenFramesDecode : Obligations.WrittenFramesDecode := by
  refine ⟨rfl, rfl, rfl, rfl, rfl, rfl, rfl, rfl, rfl, by decide⟩

end Sys2Proof.Machine
end

section
/-! PROOFS. What holds right after reset (R24, R52, R261). -/

namespace Sys2Proof.Machine

/-- Settles O2: the observation reads only fields whose reset value R52 fixes. -/
theorem resetDrivesNeutralOutputs : Obligations.ResetDrivesNeutralOutputs := fun _ _ _ _ _ _ _ => rfl

/-- After reset the block is idle, so each clause about an operation in progress is void; the ranges are those of zeros, and the parameters
and the storage are given. -/
theorem State.resetWith_inv {p : Params} {m : Memory} (hp : Params.valid p = true) (hm : Memory.wf m = true)
    (line acc t0 disk wpt : Bool) : (State.resetWith p line m acc t0 disk wpt).Inv where
  validParams := hp
  tickRange := Nat.two_pow_pos _
  schedRange := Nat.two_pow_pos _
  revRange := Nat.two_pow_pos _
  notPulseHigh := nofun
  armedBusy := nofun
  waitArmed := by rintro (h | h | h) <;> cases h
  timeoutCount := nofun
  enabledReading := ⟨nofun, nofun⟩
  firstEdge := nofun
  beforeFirst := nofun
  latchLine := nofun
  revBound := fun _ => nofun
  pendRange := Nat.zero_le _
  targetRange := Nat.zero_le _
  stepLine := ⟨nofun, nofun⟩
  storage := hm
  packetsIn := nofun
  packetsOut := nofun

/-- Settles O3: `State.reset` is `State.resetWith` of the default parameters, which are valid, and of an empty storage. -/
theorem resetMeetsInvariant : Obligations.ResetMeetsInvariant :=
  ⟨fun _ line acc t0 disk wpt _ hp hm => State.resetWith_inv hp hm line acc t0 disk wpt,
    State.resetWith_inv (by decide) rfl true true false false false⟩

end Sys2Proof.Machine
end

section
/-! PROOFS. What a step does to the queue, said once: the branches of a step that touch it, with the condition of each (R54, R86, R87, R181 to
R187). -/

namespace Sys2Proof.Machine

/-! ### The queue registers -/

/-- The queue registers of `t` are those of `u`: the storage, the cursor, the count and the overflow flag (R38 to R41). -/
structure SameQueue (t u : State) : Prop where
  qbuf : t.qbuf = u.qbuf
  qWr : t.qWr = u.qWr
  qPend : t.qPend = u.qPend
  qOvf : t.qOvf = u.qOvf

/-- What a step does to the queue registers of `s`. A push names its byte; only an index edge pushes twice. -/
inductive QueueMove (s t : State) : Prop where
  | keep (same : SameQueue t s)
  | push (b : Byte) (hb : b ∈ pushedCodes) (hn : s.pushNext) (same : SameQueue t (s.push b))
  | pushTwice (hc : s.captureNext) (same : SameQueue t ((s.push 0xC4).push 0xC1))
  | marker (he : s.nextEvent = .tick) (ho : s.qOvf = true) (same : SameQueue t (({ s with qOvf := false } : State).markerPush 0xC2))
  | drain (hm : s.mainNext .drain) (hp : 64 < s.qPend.toNat) (ha : s.txAccept = true)
      (same : SameQueue t { s with qPend := s.qPend - 64 })

/-! ### The commands that push -/

theorem pushNext_of_answers {s : State} {i : Instr} (hn : s.rxNext i) (ha : Instr.answersAtOnce s i = true) : s.pushNext :=
  .inl ⟨i, ha, hn⟩

theorem pushNext_of_wake {s : State} (hw : s.wakeNext) {o : OpState} (ho : s.opState = o) (hne : o ≠ .stepPulseLow) :
    s.pushNext :=
  .inr (.inl ⟨hw, ho ▸ hne⟩)

theorem pushNext_of_tick {s : State} (he : s.nextEvent = .tick) (ho : s.qOvf = true) : s.pushNext :=
  .inr (.inr (.inl ⟨he, ho⟩))

theorem pushNext_of_capture {s : State} (hc : s.captureNext) : s.pushNext := .inr (.inr (.inr hc))

theorem answersAtOnce_selectDrive {p : Byte} {d : DriveSel} (h : driveOperand p = some d) (s : State) :
    Instr.answersAtOnce s (.selectDrive p) = true := by
  by_contra hn
  have above : 2 < p.toNat := by simpa [Instr.answersAtOnce, BitVec.le_def] using hn
  simp [driveOperand_of_gt above] at h

theorem answersAtOnce_head {p : Byte} {b : Bool} (h : sideOperand p = some b) (s : State) :
    Instr.answersAtOnce s (.head p) = true := by
  by_contra hn
  have above : 1 < p.toNat := by simpa [Instr.answersAtOnce, BitVec.le_def] using hn
  simp [sideOperand_of_gt above] at h

theorem answersAtOnce_cylinder_here {s : State} {c : Byte} (hle : c.toNat ≤ 79) (h0 : c ≠ 0) (hc : c = s.curCyl) :
    Instr.answersAtOnce s (.cylinder c) = true := by
  have legal : c ≤ Config.cylMax := hle
  simpa [Instr.answersAtOnce, legal, ← hc] using Or.inl h0

/-! ### The inversion -/

theorem StepCase.queueMove {s t : State} (h : StepCase s t) : QueueMove s t := by
  cases h with
  | tickOverflow he ho => exact .marker he ho ⟨rfl, rfl, rfl, rfl⟩
  | captureFirst he hc hl hm => exact .push 0xC3 (by decide) (pushNext_of_capture hc) ⟨rfl, rfl, rfl, rfl⟩
  | captureOn he hc hl hm => exact .push 0xC3 (by decide) (pushNext_of_capture hc) ⟨rfl, rfl, rfl, rfl⟩
  | captureOff he hc hl hx => exact .push 0xC4 (by decide) (pushNext_of_capture hc) ⟨rfl, rfl, rfl, rfl⟩
  | captureLast he hc hl hx => exact .pushTwice hc ⟨rfl, rfl, rfl, rfl⟩
  | drainSend hm hp ha => exact .drain hm hp ha ⟨rfl, rfl, rfl, rfl⟩
  | rxSelectDrive p d pkt rest hn hf hd =>
    exact .push 0xC1 (by decide) (pushNext_of_answers hn (answersAtOnce_selectDrive hd s)) ⟨rfl, rfl, rfl, rfl⟩
  | rxHead p b pkt rest hn hf hd =>
    exact .push 0xC1 (by decide) (pushNext_of_answers hn (answersAtOnce_head hd s)) ⟨rfl, rfl, rfl, rfl⟩
  | rxSeekAtTrack0 pkt rest hn hf h0 =>
    exact .push 0xC1 (by decide) (pushNext_of_answers hn h0) ⟨rfl, rfl, rfl, rfl⟩
  | rxSeekHere c pkt rest hn hf hle h0 hc =>
    exact .push 0xC1 (by decide) (pushNext_of_answers hn (answersAtOnce_cylinder_here hle h0 hc)) ⟨rfl, rfl, rfl, rfl⟩
  | rxCheckDisk pkt rest hn hf =>
    have coded : (if s.diskPresent then (0xC6 : Byte) else 0xC5) ∈ pushedCodes := by split <;> decide
    exact .push _ coded (pushNext_of_answers hn rfl) ⟨rfl, rfl, rfl, rfl⟩
  | rxMotorOff pkt rest hn hf => exact .push 0xC1 (by decide) (pushNext_of_answers hn rfl) ⟨rfl, rfl, rfl, rfl⟩
  | settled hw ho => exact .push 0xC1 (by decide) (pushNext_of_wake hw ho nofun) ⟨rfl, rfl, rfl, rfl⟩
  | spunUp hw ho => exact .push 0xC1 (by decide) (pushNext_of_wake hw ho nofun) ⟨rfl, rfl, rfl, rfl⟩
  | timedOut hw ho => exact .push 0xC8 (by decide) (pushNext_of_wake hw ho nofun) ⟨rfl, rfl, rfl, rfl⟩
  | _ => exact .keep ⟨rfl, rfl, rfl, rfl⟩

/-! ### The count and the storage -/

/-- `marker_push` keeps the count in range and never lowers it. -/
theorem State.markerPush_pend (b : Byte) {s : State} (h : s.qPend.toNat ≤ 128) :
    s.qPend.toNat ≤ (s.markerPush b).qPend.toNat ∧ (s.markerPush b).qPend.toNat ≤ 128 := by
  rw [State.markerPush_qPend]
  by_cases room : s.qPend.toNat < Config.qCap
  · have one_more : (s.qPend + 1).toNat = s.qPend.toNat + 1 := by bv_omega
    rw [if_pos room, one_more]
    exact ⟨Nat.le_succ _, room⟩
  · rw [if_neg room]
    exact ⟨le_refl _, h⟩

theorem QueueMove.pendRange {s t : State} (h : QueueMove s t) (hp : s.qPend.toNat ≤ 128) : t.qPend.toNat ≤ 128 := by
  cases h with
  | keep same => rwa [same.qPend]
  | push b _ _ same => rw [same.qPend]; exact (State.push_pend b hp).2
  | pushTwice _ same => rw [same.qPend]; exact (State.push_pend 0xC1 (State.push_pend 0xC4 hp).2).2
  | marker _ _ same => rw [same.qPend]; exact (State.markerPush_pend (s := { s with qOvf := false }) 0xC2 hp).2
  | drain _ more _ same => rw [same.qPend]; bv_omega

/-- Only a DRAIN step lowers the count (R187). -/
theorem QueueMove.pend_le {s t : State} (h : QueueMove s t) (hd : ¬s.mainNext .drain) (hp : s.qPend.toNat ≤ 128) :
    s.qPend.toNat ≤ t.qPend.toNat := by
  cases h with
  | keep same => rw [same.qPend]
  | push b _ _ same => rw [same.qPend]; exact (State.push_pend b hp).1
  | pushTwice _ same =>
    have first := State.push_pend 0xC4 hp
    rw [same.qPend]
    exact first.1.trans (State.push_pend 0xC1 first.2).1
  | marker _ _ same => rw [same.qPend]; exact (State.markerPush_pend (s := { s with qOvf := false }) 0xC2 hp).1
  | drain hm _ _ _ => exact absurd hm hd

theorem QueueMove.storage {s t : State} (h : QueueMove s t) (hm : Memory.wf s.qbuf = true) : Memory.wf t.qbuf = true := by
  cases h with
  | keep same => rwa [same.qbuf]
  | push b _ _ same => rw [same.qbuf]; exact State.push_wf b hm
  | pushTwice _ same => rw [same.qbuf]; exact State.push_wf 0xC1 (State.push_wf 0xC4 hm)
  | marker _ _ same => rw [same.qbuf]; exact State.markerPush_wf (s := { s with qOvf := false }) 0xC2 hm
  | drain _ _ _ same => rw [same.qbuf]; exact hm

end Sys2Proof.Machine
end

section
/-! PROOFS. Every step keeps the invariant (R21 to R40, R24, R88, R170, R172). -/

namespace Sys2Proof.Machine

/-! ### The operation in progress -/

/-- The part of the state that the invariant's clauses about the operation in progress read. -/
structure Operation where
  opState : OpState
  armed : Bool
  idxEn : Bool
  idxMode : IdxMode
  idxLatch : Bool
  revCount : Nat
  revTarget : Byte
  idxLine : Bool
  stepN : Bool
  revW : Nat

def State.operation (s : State) : Operation where
  opState := s.opState
  armed := s.armed
  idxEn := s.idxEn
  idxMode := s.idxMode
  idxLatch := s.idxLatch
  revCount := s.revCount
  revTarget := s.revTarget
  idxLine := s.idxLine
  stepN := s.stepN
  revW := s.params.revW

/-- The clauses of `State.Inv` about the operation in progress (R23, R24, R125, R160, R165, R166, R170, R172). -/
structure Operation.Inv (v : Operation) : Prop where
  armedBusy : v.armed = true → v.opState ≠ .idle
  waitArmed : v.opState = .stepPulseLow ∨ v.opState = .stepSettle ∨ v.opState = .spinningUp → v.armed = true
  timeoutCount : v.opState = .reading → v.armed = true → v.revCount = 0
  enabledReading : v.idxEn = true ↔ v.opState = .reading
  firstEdge : v.opState = .reading → (v.armed = true ↔ v.idxMode = .falling)
  beforeFirst : v.opState = .reading → v.idxMode = .falling → v.idxLatch = false ∧ v.revCount = 0
  latchLine : v.opState = .reading → v.idxMode = .both → v.idxLatch = !v.idxLine
  revBound : 256 < 2 ^ v.revW → v.opState = .reading →
    v.revCount ≤ v.revTarget.toNat + 1 ∧ (v.idxLatch = false → v.revCount ≤ v.revTarget.toNat)
  stepLine : (v.opState = .stepPulseLow → v.stepN = false) ∧ (v.opState = .stepSettle → v.stepN = true)

theorem State.Inv.operation {s : State} (h : s.Inv) : s.operation.Inv :=
  ⟨h.armedBusy, h.waitArmed, h.timeoutCount, h.enabledReading, h.firstEdge, h.beforeFirst, h.latchLine, h.revBound, h.stepLine⟩

namespace Operation.Inv

/-- With no operation and no wake every clause is void. -/
theorem of_idle {v : Operation} (ho : v.opState = .idle) (ha : v.armed = false) (he : v.idxEn = false) : v.Inv := by
  constructor <;> simp [ho, ha, he]

/-- An armed operation other than a read session has a clause about the step line only. -/
theorem of_waiting {v : Operation} (hi : v.opState ≠ .idle) (hr : v.opState ≠ .reading) (ha : v.armed = true) (he : v.idxEn = false)
    (low : v.opState = .stepPulseLow → v.stepN = false) (high : v.opState = .stepSettle → v.stepN = true) : v.Inv := by
  constructor <;> simp_all

/-- A read session before its first on-edge (R160). -/
theorem of_session {v : Operation} (ho : v.opState = .reading) (ha : v.armed = true) (he : v.idxEn = true) (hm : v.idxMode = .falling)
    (hl : v.idxLatch = false) (hc : v.revCount = 0) : v.Inv := by
  constructor <;> simp [ho, ha, he, hm, hl, hc]

variable {s : State}

/-- An operation other than a read session has the index interrupt disabled (R24 (d)). -/
theorem idxEn_eq_false (h : s.operation.Inv) {o : OpState} (ho : s.opState = o) (hr : o ≠ .reading) : s.idxEn = false :=
  Bool.eq_false_iff.2 fun enabled => hr (ho ▸ h.enabledReading.1 enabled)

/-- An edge that does not qualify leaves the latch alone, and a session in both-edge mode has no such edge (R164, R169). -/
theorem quietEdge (h : s.operation.Inv) (he : s.edgeNext) (hc : ¬s.captureNext) :
    Operation.Inv { s.operation with idxLine := !s.idxLine } := by
  have notBoth (ho : s.opState = .reading) (hm : s.idxMode = .both) : False := by
    rcases he with fall | ⟨rise, line⟩
    · exact hc ⟨h.enabledReading.2 ho, .inl fall⟩
    · exact hc ⟨h.enabledReading.2 ho, .inr ⟨rise, line, hm⟩⟩
  exact { h with latchLine := fun ho hm => (notBoth ho hm).elim }

/-- An edge that turns the latch on, once the timeout is disarmed: the latch follows the line that falls, and a count that was at most the
target grows by one, which a wide enough counter holds (R165, R170, R172). -/
theorem captureOn (h : s.operation.Inv) (hc : s.captureNext) (hl : s.idxLatch = false) (line : s.idxLine = true) :
    Operation.Inv { s.operation with
      idxLine := !s.idxLine, idxLatch := true, revCount := (s.revCount + 1) % 2 ^ s.params.revW, idxMode := .both, armed := false } := by
  have reading : s.opState = .reading := h.enabledReading.1 hc.1
  have bound (wide : 256 < 2 ^ s.params.revW) : (s.revCount + 1) % 2 ^ s.params.revW ≤ s.revTarget.toNat + 1 := by
    have target := s.revTarget.isLt
    have below : s.revCount ≤ s.revTarget.toNat := (h.revBound wide reading).2 hl
    rw [Nat.mod_eq_of_lt (by omega)]
    omega
  exact {
    armedBusy := nofun
    waitArmed := by simp [State.operation, reading]
    timeoutCount := nofun
    enabledReading := h.enabledReading
    firstEdge := fun _ => ⟨nofun, nofun⟩
    beforeFirst := nofun
    latchLine := fun _ _ => by simp [line]
    revBound := fun wide _ => ⟨bound wide, nofun⟩
    stepLine := h.stepLine }

/-- An edge that turns the latch off while the count does not exceed the target (R165). -/
theorem captureOff (h : s.operation.Inv) (hc : s.captureNext) (hl : s.idxLatch = true) (hx : s.revCount ≤ s.revTarget.toNat) :
    Operation.Inv { s.operation with idxLine := !s.idxLine, idxLatch := false } := by
  have reading : s.opState = .reading := h.enabledReading.1 hc.1
  have follows (hm : s.idxMode = .both) : (!s.idxLine) = true := (h.latchLine reading hm).symm.trans hl
  exact { h with
    beforeFirst := fun ho hm => ⟨rfl, (h.beforeFirst ho hm).2⟩
    latchLine := fun _ hm => by rw [follows hm]; rfl
    revBound := fun _ _ => ⟨Nat.le_succ_of_le hx, fun _ => hx⟩ }

end Operation.Inv

/-- The first on-edge is a fall: before it a rise does not qualify (R164). -/
theorem State.idxLine_of_captureFirst {s : State} (hc : s.captureNext) (hm : s.idxMode = .falling) : s.idxLine = true := by
  obtain ⟨-, ⟨-, line⟩ | ⟨-, -, both⟩⟩ := hc
  · exact line
  · simp [hm] at both

/-- In both-edge mode the latch is ON exactly while the line is low, so an edge that turns it on is a fall (R170). -/
theorem Operation.Inv.idxLine_of_captureOn {s : State} (h : s.operation.Inv) (hc : s.captureNext) (hl : s.idxLatch = false)
    (hm : s.idxMode = .both) : s.idxLine = true := by
  have follows : s.idxLatch = !s.idxLine := h.latchLine (h.enabledReading.1 hc.1) hm
  simpa [hl] using follows.symm

theorem Operation.Inv.disarmed_of_both {s : State} (h : s.operation.Inv) (hc : s.captureNext) (hm : s.idxMode = .both) :
    s.armed = false :=
  Bool.eq_false_iff.2 fun armed => by simpa [State.operation, hm] using (h.firstEdge (h.enabledReading.1 hc.1)).1 armed

theorem StepCase.operationInv {s t : State} (h : StepCase s t) (hi : s.operation.Inv) : t.operation.Inv := by
  cases h with
  | quietEdge he hc => exact hi.quietEdge he hc
  | captureFirst he hc hl hm => exact hi.captureOn hc hl (State.idxLine_of_captureFirst hc hm)
  | captureOn he hc hl hm =>
    have same := hi.captureOn hc hl (hi.idxLine_of_captureOn hc hl hm)
    rw [← hm, ← hi.disarmed_of_both hc hm] at same
    exact same
  | captureOff he hc hl hx => exact hi.captureOff hc hl hx
  | captureLast | rxSeekAtTrack0 | rxSeekHere | timedOut => exact .of_idle rfl rfl rfl
  | settled hw ho => exact .of_idle rfl rfl (hi.idxEn_eq_false ho nofun)
  | spunUp hw ho => exact .of_idle rfl rfl (hi.idxEn_eq_false ho nofun)
  | rxSeekHome | rxSeekAway => exact .of_waiting nofun nofun rfl rfl (fun _ => rfl) nofun
  | rxMotorOn => exact .of_waiting nofun nofun rfl rfl nofun nofun
  | pulseTrack0 hw ho h0 => exact .of_waiting nofun nofun rfl (hi.idxEn_eq_false ho nofun) nofun (fun _ => rfl)
  | pulseArrived hw ho h0 hc => exact .of_waiting nofun nofun rfl (hi.idxEn_eq_false ho nofun) nofun (fun _ => rfl)
  | pulseOnward hw ho h0 hc => exact .of_waiting nofun nofun rfl (hi.idxEn_eq_false ho nofun) (fun _ => rfl) nofun
  | rxRead => exact .of_session rfl rfl rfl rfl rfl rfl
  | _ => exact hi

/-! ### The ranges and the packets -/

theorem StepCase.tickRange {s t : State} (h : StepCase s t) (hi : s.tick < 2 ^ s.params.tickW) : t.tick < 2 ^ t.params.tickW := by
  cases h with
  | tick | tickOverflow => exact Nat.mod_lt _ (Nat.two_pow_pos _)
  | _ => exact hi

theorem StepCase.schedRange {s t : State} (h : StepCase s t) (hi : s.sched < 2 ^ s.params.tickW) : t.sched < 2 ^ t.params.tickW := by
  cases h with
  | rxSeekHome | rxSeekAway | rxMotorOn | rxRead | pulseTrack0 | pulseArrived | pulseOnward => exact Nat.mod_lt _ (Nat.two_pow_pos _)
  | _ => exact hi

theorem StepCase.revRange {s t : State} (h : StepCase s t) (hi : s.revCount < 2 ^ s.params.revW) : t.revCount < 2 ^ t.params.revW := by
  cases h with
  | captureFirst | captureOn => exact Nat.mod_lt _ (Nat.two_pow_pos _)
  | rxRead => exact Nat.two_pow_pos _
  | _ => exact hi

theorem StepCase.targetRange {s t : State} (h : StepCase s t) (hi : s.tgtCyl.toNat ≤ 79) : t.tgtCyl.toNat ≤ 79 := by
  cases h with
  | rxSeekAtTrack0 | rxSeekHome => exact Nat.zero_le _
  | rxSeekHere c pkt rest hn hf hle => exact hle
  | rxSeekAway c pkt rest hn hf hle => exact hle
  | _ => exact hi

/-- A step leaves `rx_fifo`, or an RX step takes its head, or HOST adds a packet at its tail (R43, R203, R213). -/
theorem StepCase.rxFifo {s t : State} (h : StepCase s t) :
    t.rxFifo = s.rxFifo ∨ (s.mainNext .rx ∧ ∃ pkt, s.rxFifo = pkt :: t.rxFifo) ∨
      ∃ pkt, s.nextEvent = .hostSend pkt ∧ pkt.length ≤ 64 ∧ t.rxFifo = s.rxFifo ++ [pkt] := by
  cases h with
  | hostSend pkt he hp => exact .inr (.inr ⟨pkt, he, hp, rfl⟩)
  | rxError pkt rest e hm hf => exact .inr (.inl ⟨hm, pkt, hf⟩)
  | rxNothing | rxSelectDrive | rxHead | rxSeekAtTrack0 | rxSeekHere | rxSeekHome | rxSeekAway | rxCheckDisk | rxMotorOff | rxMotorOn |
    rxRead | rxHandshake =>
    obtain ⟨i, hm, -⟩ : ∃ i, s.rxNext i := ⟨_, by assumption⟩
    exact .inr (.inl ⟨hm, _, by assumption⟩)
  | _ => exact .inl rfl

/-- A step sends nothing, or one block, or the handshake reply; it sends to a host that accepts (R88, R202). -/
theorem StepCase.txLog {s t : State} (h : StepCase s t) :
    t.txLog = s.txLog ∨
    (s.mainNext .drain ∧ 64 < s.qPend.toNat ∧ s.txAccept = true ∧
      t.txLog = s.txLog ++ [Memory.readBlock s.qbuf s.drainBase 64]) ∨
    (s.rxNext .handshake ∧ s.txAccept = true ∧ t.txLog = s.txLog ++ [handshakePacket]) := by
  cases h with
  | drainSend hm hp ha => exact .inr (.inl ⟨hm, hp, ha, rfl⟩)
  | rxHandshake pkt rest hn hf ha => exact .inr (.inr ⟨hn, ha, rfl⟩)
  | _ => exact .inl rfl

theorem StepCase.packetsIn {s t : State} (h : StepCase s t) (hi : ∀ p ∈ s.rxFifo, p.length ≤ 64) : ∀ p ∈ t.rxFifo, p.length ≤ 64 := by
  rcases h.rxFifo with same | ⟨-, pkt, taken⟩ | ⟨pkt, -, short, added⟩
  · rwa [same]
  · exact fun p hp => hi p (taken ▸ List.mem_cons_of_mem pkt hp)
  · rw [added]
    exact fun p hp => (List.mem_append.1 hp).elim (hi p) fun new => List.mem_singleton.1 new ▸ short

theorem StepCase.packetsOut {s t : State} (h : StepCase s t) (hi : ∀ p ∈ s.txLog, p.length = 64 ∨ p = handshakePacket) :
    ∀ p ∈ t.txLog, p.length = 64 ∨ p = handshakePacket := by
  intro p hp
  rcases h.txLog with same | ⟨-, -, -, sent⟩ | ⟨-, -, sent⟩
  · exact hi p (same ▸ hp)
  · rcases List.mem_append.1 (sent ▸ hp) with old | new
    · exact hi p old
    · exact .inl (List.mem_singleton.1 new ▸ Memory.readBlock_length _ _ _)
  · rcases List.mem_append.1 (sent ▸ hp) with old | new
    · exact hi p old
    · exact .inr (List.mem_singleton.1 new)

/-! ### The invariant -/

theorem State.Inv.refusal {s : State} (h : s.Inv) : s.refusal = none := (refusal_none_iff s).2 ⟨h.validParams, h.notPulseHigh⟩

theorem StepCase.inv {s t : State} (h : StepCase s t) (hi : s.Inv) : t.Inv := by
  obtain ⟨valid, notHigh⟩ := (refusal_none_iff t).1 (h.refusal hi.refusal)
  have op := h.operationInv hi.operation
  exact {
    validParams := valid
    tickRange := h.tickRange hi.tickRange
    schedRange := h.schedRange hi.schedRange
    revRange := h.revRange hi.revRange
    notPulseHigh := notHigh
    armedBusy := op.armedBusy
    waitArmed := op.waitArmed
    timeoutCount := op.timeoutCount
    enabledReading := op.enabledReading
    firstEdge := op.firstEdge
    beforeFirst := op.beforeFirst
    latchLine := op.latchLine
    revBound := op.revBound
    pendRange := h.queueMove.pendRange hi.pendRange
    targetRange := h.targetRange hi.targetRange
    stepLine := op.stepLine
    storage := h.queueMove.storage hi.storage
    packetsIn := h.packetsIn hi.packetsIn
    packetsOut := h.packetsOut hi.packetsOut }

/-- Settles O37: every step is one of the branches of `StepCase`, and each part of the invariant is kept by every branch. -/
theorem stepKeepsInvariant : Obligations.StepKeepsInvariant := fun _ _ hi h => (stepCase_of_step h).inv hi

/-- Settles O40: the three cases of `StepCase.rxFifo`; that a packet sent is short is not asked for. -/
theorem framesConsumedInOrder : Obligations.FramesConsumedInOrder := by
  intro s t h
  rcases (stepCase_of_step h).rxFifo with same | taken | ⟨pkt, he, -, added⟩
  · exact .inl same
  · exact .inr (.inl taken)
  · exact .inr (.inr ⟨pkt, he, added⟩)

/-- Settles O42: the two sending cases of `StepCase.txLog`, each to a host that accepts. -/
theorem onlyBlocksAndHandshakesAreSent : Obligations.OnlyBlocksAndHandshakesAreSent := by
  intro s t h changed
  rcases (stepCase_of_step h).txLog with same | ⟨hm, more, accepts, sent⟩ | ⟨hn, accepts, sent⟩
  · exact absurd same changed
  · exact ⟨accepts, _, sent, .inl ⟨hm, more, Memory.readBlock_length _ _ _⟩⟩
  · exact ⟨accepts, _, sent, .inr ⟨hn, rfl⟩⟩

end Sys2Proof.Machine
end

section
/-! PROOFS. The response bytes that a step puts into the queue, and the queue as a FIFO (R87, R181 to R189). -/

namespace Sys2Proof.Machine

theorem pushedCodes_ne_unlisted {b : Byte} (hb : b ∈ pushedCodes) : b ≠ Memory.unlisted := by
  rintro rfl
  exact absurd hb (by decide)

/-! ### Bytes written at the cursor -/

/-- `t` has the bytes `l` written from the cursor of `s` on, the cursor moved past them, and every other byte of the storage of `s`. -/
structure Appended (l : List Byte) (s t : State) : Prop where
  qWr : t.qWr = s.qWr + BitVec.ofNat 7 l.length
  written : ∀ i (h : i < l.length), Memory.read t.qbuf ((s.qWr.toNat + i) % 128) = l[i]
  others : ∀ a, (∀ i, i < l.length → a ≠ (s.qWr.toNat + i) % 128) → Memory.read t.qbuf a = Memory.read s.qbuf a

theorem Appended.nil {s t : State} (hb : t.qbuf = s.qbuf) (hw : t.qWr = s.qWr) : Appended [] s t :=
  ⟨by simp [hw], nofun, fun a _ => by rw [hb]⟩

/-- One more listed byte at the cursor, in a ring that the bytes do not go all the way round. -/
theorem Appended.concat {l : List Byte} {s u t : State} (h : Appended l s u) (hl : l.length < 128) {b : Byte} (hb : b ≠ Memory.unlisted)
    (hq : t.qbuf = Memory.write u.qbuf u.qWr.toNat b) (hw : t.qWr = u.qWr + 1) : Appended (l ++ [b]) s t := by
  have cursor : u.qWr.toNat = (s.qWr.toNat + l.length) % 128 := by
    rw [h.qWr, BitVec.toNat_add, BitVec.toNat_ofNat]
    omega
  refine ⟨?_, fun i hi => ?_, fun a ha => ?_⟩
  · rw [hw, h.qWr, List.length_append, BitVec.add_assoc, BitVec.ofNat_add]
    rfl
  · rw [List.length_append, List.length_singleton] at hi
    rw [hq, Memory.read_write_of_ne hb, cursor]
    by_cases last : i = l.length
    · subst last
      rw [if_pos rfl, List.getElem_concat_length rfl]
    · have lt := s.qWr.isLt
      rw [if_neg (by omega), List.getElem_append_left (by omega)]
      exact h.written i (by omega)
  · simp only [List.length_append, List.length_singleton] at ha
    rw [hq, Memory.read_write_of_ne hb, cursor, if_neg (ha l.length (by omega))]
    exact h.others a fun i hi => ha i (by omega)

theorem appended_push {b : Byte} (hb : b ∈ pushedCodes) (s : State) : Appended [b] s (s.push b) :=
  (Appended.nil (s := s) rfl rfl).concat (by decide) (pushedCodes_ne_unlisted hb) rfl rfl

/-- What a step writes into the queue: at most two of the response bytes that the block pushes, two by an index edge only. -/
theorem QueueMove.appended {s t : State} (h : QueueMove s t) :
    ∃ l, Appended l s t ∧ l.length ≤ 2 ∧ (¬s.captureNext → l.length ≤ 1) ∧ ∀ b ∈ l, b ∈ pushedCodes := by
  cases h with
  | keep same => exact ⟨[], .nil same.qbuf same.qWr, by decide, fun _ => by decide, nofun⟩
  | push b hb hn same =>
    exact ⟨[b], (Appended.nil (s := s) rfl rfl).concat (by decide) (pushedCodes_ne_unlisted hb) same.qbuf same.qWr, by simp, by simp,
      by simpa using hb⟩
  | pushTwice hc same =>
    exact ⟨[0xC4, 0xC1], (appended_push (by decide) s).concat (by decide) (by decide) same.qbuf same.qWr, by decide, absurd hc,
      by decide⟩
  | marker he ho same =>
    exact ⟨[0xC2], (Appended.nil (s := s) rfl rfl).concat (by decide) (by decide) same.qbuf same.qWr, by decide, fun _ => by decide,
      by decide⟩
  | drain hm hp ha same => exact ⟨[], .nil same.qbuf same.qWr, by decide, fun _ => by decide, nofun⟩

/-- Settles O41: the bytes are those that `QueueMove.appended` finds. -/
theorem stepPushesFewResponseBytes : Obligations.StepPushesFewResponseBytes := by
  intro s t h
  obtain ⟨l, app, two, one, coded⟩ := (stepCase_of_step h).queueMove.appended
  exact ⟨l, app.qWr, two, one, coded, app.written, app.others⟩

/-! ### The FIFO -/

/-- A DRAIN step that sends (R187, R188, R201). -/
theorem step_drain_sends {s : State} (hr : s.refusal = none) (hm : s.mainNext .drain) (more : 64 < s.qPend.toNat)
    (accepts : s.txAccept = true) : step s = .next { s.afterChoice with
      txLog := s.txLog ++ [Memory.readBlock s.qbuf s.drainBase 64], qPend := s.qPend - 64, mlPhase := .rx } := by
  rw [step_drain hr hm, drainPhase_of_accept (s := s.afterChoice) more accepts]
  rfl

theorem State.bytesSent_block {s t : State} {p : Packet} (h : t.txLog = s.txLog ++ [p]) (hp : p.length = 64) :
    t.bytesSent = s.bytesSent ++ p := by
  simp [State.bytesSent, h, hp]

theorem State.bytesSent_other {s t : State} {p : Packet} (h : t.txLog = s.txLog ++ [p]) (hp : p.length ≠ 64) :
    t.bytesSent = s.bytesSent := by
  simp [State.bytesSent, h, hp]

/-- Only a DRAIN step sends bytes of the queue: the handshake reply goes past it (R206). -/
theorem StepCase.bytesSent {s t : State} (h : StepCase s t) (hd : ¬(s.mainNext .drain ∧ 64 < s.qPend.toNat ∧ s.txAccept = true)) :
    t.bytesSent = s.bytesSent := by
  rcases h.txLog with same | ⟨hm, more, accepts, -⟩ | ⟨-, -, sent⟩
  · rw [State.bytesSent, same]; rfl
  · exact absurd ⟨hm, more, accepts⟩ hd
  · exact State.bytesSent_other sent (by decide)

/-- A push that leaves room had room for one more before. -/
theorem State.Unsent.room_of_push {s : State} {l : List Byte} {b : Byte} (h : s.Unsent l) (ht : (s.push b).qPend.toNat < 128) :
    l.length < 127 := by
  obtain ⟨count, below, -⟩ := h
  simp only [State.push_qPend, State.queueFull, Config.qCap, beq_iff_eq] at ht
  rw [if_neg (by omega), BitVec.toNat_add, show BitVec.toNat (1 : BitVec 8) = 1 from rfl] at ht
  omega

theorem State.Unsent.room_of_markerPush {s : State} {l : List Byte} {b : Byte} (h : s.Unsent l)
    (ht : (s.markerPush b).qPend.toNat < 128) : l.length < 127 := by
  obtain ⟨count, below, -⟩ := h
  have room : s.qPend.toNat < Config.qCap := count ▸ below
  rw [State.markerPush_qPend, if_pos room, BitVec.toNat_add, show BitVec.toNat (1 : BitVec 8) = 1 from rfl] at ht
  omega

theorem State.Unsent.of_sameQueue {t u : State} {l : List Byte} (h : u.Unsent l) (same : SameQueue t u) : t.Unsent l :=
  h.congr same.qbuf same.qWr same.qPend

/-- A step that does not drain puts its response bytes behind the unsent ones. -/
theorem QueueMove.unsent {s t : State} {l : List Byte} (h : QueueMove s t) (hl : s.Unsent l) (ht : t.qPend.toNat < 128)
    (hd : ¬(s.mainNext .drain ∧ 64 < s.qPend.toNat ∧ s.txAccept = true)) :
    ∃ new, t.Unsent (l ++ new) ∧ new.length ≤ 2 ∧ ∀ b ∈ new, b ∈ pushedCodes := by
  cases h with
  | keep same => exact ⟨[], by simpa using hl.of_sameQueue same, by decide, nofun⟩
  | push b hb hn same =>
    have room := hl.room_of_push (b := b) (same.qPend ▸ ht)
    exact ⟨[b], (hl.push room (pushedCodes_ne_unlisted hb)).of_sameQueue same, by simp, by simpa using hb⟩
  | pushTwice hc same =>
    have pend : (s.push 0xC4).qPend.toNat ≤ t.qPend.toNat := by
      have range := State.push_pend (b := 0xC4) (s := s) (by have := hl.1; have := hl.2.1; omega)
      rw [same.qPend]
      exact (State.push_pend 0xC1 range.2).1
    have first := hl.push (hl.room_of_push (b := 0xC4) (by omega)) (b := 0xC4) (by decide)
    have second := first.push (first.room_of_push (b := 0xC1) (same.qPend ▸ ht)) (b := 0xC1) (by decide)
    exact ⟨[0xC4, 0xC1], by simpa using second.of_sameQueue same, by decide, by decide⟩
  | marker he ho same =>
    have hl' : State.Unsent { s with qOvf := false } l := hl
    have room := hl'.room_of_markerPush (b := 0xC2) (same.qPend ▸ ht)
    exact ⟨[0xC2], (hl'.markerPush room (by decide)).of_sameQueue same, by decide, by decide⟩
  | drain hm hp ha same => exact absurd ⟨hm, hp, ha⟩ hd

/-- Settles O47: a step that drains moves the oldest 64 unsent bytes to the host; any other puts its response bytes behind the unsent ones and
sends none of them. -/
theorem queueIsFifoUntilFull : Obligations.QueueIsFifoUntilFull := by
  refine ⟨⟨rfl, by decide, rfl, nofun⟩, fun s t l hl h ht => ?_⟩
  by_cases hd : s.mainNext .drain ∧ 64 < s.qPend.toNat ∧ s.txAccept = true
  · obtain ⟨hm, more, accepts⟩ := hd
    rw [step_drain_sends (step_next_iff.1 h).1 hm more accepts] at h
    cases h
    obtain ⟨oldest, rest⟩ := hl.drain (t := { s.afterChoice with
      txLog := s.txLog ++ [Memory.readBlock s.qbuf s.drainBase 64], qPend := s.qPend - 64, mlPhase := .rx }) more rfl rfl rfl
    refine ⟨l.drop 64, [], rest, ?_, by decide, nofun⟩
    rw [State.bytesSent_block (s := s) rfl (Memory.readBlock_length _ _ _), oldest]
    simp
  · have c := stepCase_of_step h
    obtain ⟨new, hnew, two, coded⟩ := c.queueMove.unsent hl ht hd
    exact ⟨l ++ new, new, hnew, by rw [c.bytesSent hd, List.append_assoc], two, coded⟩

end Sys2Proof.Machine
end

section
/-! PROOFS. The writers of each field (10_state.md section 10, R54). -/

namespace Sys2Proof.Machine

/-! ### The steps that the table names -/

theorem State.rxNext.main {s : State} {i : Instr} (h : s.rxNext i) : s.nextEvent = .main := h.1.1

theorem State.wakeNext.main {s : State} (h : s.wakeNext) : s.nextEvent = .main := h.1.1

theorem State.rxNext.armingNext {s : State} {i : Instr} (h : s.rxNext i) (hi : Instr.arming i = true) : s.armingNext := ⟨i, hi, h⟩

theorem arming_cylinder {c : Byte} (h : c.toNat ≤ 79) : Instr.arming (.cylinder c) = true := decide_eq_true h

theorem arming_motor {v : Byte} (h : v ≠ 0) : Instr.arming (.motor v) = true := bne_iff_ne.2 h

theorem arming_read {i : Instr} {n : Byte} (h : i = .read ∧ n = 1 ∨ i = .readMulti n) : Instr.arming i = true := by
  rcases h with ⟨rfl, -⟩ | rfl <;> rfl

/-! ### One lemma per row of the table -/

section Writers
variable {s t : State}

theorem StepCase.tick_eq (h : StepCase s t) (he : s.nextEvent ≠ .tick) : t.tick = s.tick := by
  cases h with
  | tick ticks => exact absurd ticks he
  | tickOverflow ticks => exact absurd ticks he
  | _ => rfl

theorem StepCase.driveSel_eq (h : StepCase s t) (hn : ∀ p, ¬s.rxNext (.selectDrive p)) : t.driveSel = s.driveSel := by
  cases h with
  | rxSelectDrive p d pkt rest next => exact absurd next (hn p)
  | _ => rfl

theorem StepCase.head_eq (h : StepCase s t) (hn : ∀ p, ¬s.rxNext (.head p)) : t.head = s.head := by
  cases h with
  | rxHead p b pkt rest next => exact absurd next (hn p)
  | _ => rfl

theorem StepCase.motor_eq (h : StepCase s t) (hn : ∀ v, ¬s.rxNext (.motor v)) :
    t.motorOn1 = s.motorOn1 ∧ t.motorOn2 = s.motorOn2 := by
  cases h with
  | rxMotorOff pkt rest next => exact absurd next (hn 0)
  | rxMotorOn v pkt rest next => exact absurd next (hn v)
  | _ => exact ⟨rfl, rfl⟩

theorem StepCase.tgtCyl_eq (h : StepCase s t) (hn : ∀ c, ¬s.rxNext (.cylinder c)) : t.tgtCyl = s.tgtCyl := by
  cases h with
  | rxSeekAtTrack0 | rxSeekHere | rxSeekHome | rxSeekAway => exact absurd (by assumption) (hn _)
  | _ => rfl

theorem StepCase.position_eq (h : StepCase s t) (hn : ∀ c, ¬s.rxNext (.cylinder c)) (hw : ¬(s.wakeNext ∧ s.opState = .stepPulseLow)) :
    t.curCyl = s.curCyl ∧ t.stepN = s.stepN ∧ t.pulses = s.pulses := by
  cases h with
  | rxSeekAtTrack0 | rxSeekHere | rxSeekHome | rxSeekAway => exact absurd (by assumption) (hn _)
  | pulseTrack0 wakes ho => exact absurd ⟨wakes, ho⟩ hw
  | pulseArrived wakes ho => exact absurd ⟨wakes, ho⟩ hw
  | pulseOnward wakes ho => exact absurd ⟨wakes, ho⟩ hw
  | _ => exact ⟨rfl, rfl, rfl⟩

theorem StepCase.dir_eq (h : StepCase s t) (hn : ∀ c, ¬s.rxNext (.cylinder c)) (hw : ¬(s.wakeNext ∧ s.opState = .stepSettle)) :
    t.dir = s.dir := by
  cases h with
  | rxSeekAtTrack0 | rxSeekHere | rxSeekHome | rxSeekAway => exact absurd (by assumption) (hn _)
  | settled wakes ho => exact absurd ⟨wakes, ho⟩ hw
  | _ => rfl

/-- Log 6: an index edge that ends a session leaves the number in `sched`. -/
theorem StepCase.sched_eq (h : StepCase s t) (ha : ¬s.armingNext) (hw : ¬s.wakeNext) : t.sched = s.sched := by
  cases h with
  | rxSeekHome pkt rest next => exact absurd (next.armingNext rfl) ha
  | rxSeekAway c pkt rest next hf hle => exact absurd (next.armingNext (arming_cylinder hle)) ha
  | rxMotorOn v pkt rest next hf hv => exact absurd (next.armingNext (arming_motor hv)) ha
  | rxRead i n pkt rest next hi => exact absurd (next.armingNext (arming_read hi)) ha
  | pulseTrack0 | pulseArrived | pulseOnward => exact absurd (by assumption) hw
  | _ => rfl

theorem StepCase.operation_eq (h : StepCase s t) (ha : ¬s.armingNext) (hw : ¬s.wakeNext) (hc : ¬s.captureNext) :
    t.armed = s.armed ∧ t.opState = s.opState ∧ t.idxEn = s.idxEn := by
  cases h with
  | captureFirst | captureLast => exact absurd (by assumption) hc
  | rxSeekAtTrack0 pkt rest next => exact absurd (next.armingNext rfl) ha
  | rxSeekHere c pkt rest next hf hle => exact absurd (next.armingNext (arming_cylinder hle)) ha
  | rxSeekHome pkt rest next => exact absurd (next.armingNext rfl) ha
  | rxSeekAway c pkt rest next hf hle => exact absurd (next.armingNext (arming_cylinder hle)) ha
  | rxMotorOn v pkt rest next hf hv => exact absurd (next.armingNext (arming_motor hv)) ha
  | rxRead i n pkt rest next hi => exact absurd (next.armingNext (arming_read hi)) ha
  | pulseTrack0 | pulseArrived | pulseOnward | settled | spunUp | timedOut => exact absurd (by assumption) hw
  | _ => exact ⟨rfl, rfl, rfl⟩

theorem StepCase.session_eq (h : StepCase s t) (hr : ¬s.rxNext .read) (hn : ∀ n, ¬s.rxNext (.readMulti n)) :
    t.revTarget = s.revTarget ∧
      (¬s.captureNext → t.idxMode = s.idxMode ∧ t.idxLatch = s.idxLatch ∧ t.revCount = s.revCount) := by
  cases h with
  | captureFirst | captureOn | captureOff | captureLast => exact ⟨rfl, fun hc => absurd (by assumption) hc⟩
  | rxRead i n pkt rest next hi =>
    rcases hi with ⟨rfl, -⟩ | rfl
    · exact absurd next hr
    · exact absurd next (hn n)
  | _ => exact ⟨rfl, fun _ => ⟨rfl, rfl, rfl⟩⟩

theorem StepCase.idxLine_eq (h : StepCase s t) (he : ¬s.edgeNext) : t.idxLine = s.idxLine := by
  cases h with
  | quietEdge | captureFirst | captureOn | captureOff | captureLast => exact absurd (by assumption) he
  | _ => rfl

theorem StepCase.rxFifo_eq (h : StepCase s t) (hm : ¬s.mainNext .rx) (he : ∀ pkt, s.nextEvent ≠ .hostSend pkt) :
    t.rxFifo = s.rxFifo := by
  rcases h.rxFifo with same | ⟨rx, -⟩ | ⟨pkt, sends, -⟩
  · exact same
  · exact absurd rx hm
  · exact absurd sends (he pkt)

theorem StepCase.txLog_eq (h : StepCase s t) (he : s.nextEvent ≠ .main) : t.txLog = s.txLog := by
  rcases h.txLog with same | ⟨hm, -⟩ | ⟨hn, -⟩
  · exact same
  · exact absurd hm.1 he
  · exact absurd hn.main he

theorem StepCase.mlPhase_eq (h : StepCase s t) (he : s.nextEvent ≠ .main) : t.mlPhase = s.mlPhase := by
  have noPhase (p : MlPhase) : ¬s.mainNext p := fun hm => he hm.1
  have noFrame (i : Instr) : ¬s.rxNext i := fun hn => he hn.main
  have noWake : ¬s.wakeNext := fun hw => he hw.main
  cases h with
  | drainNone | drainSend | rxEmpty | rxError | pollNone => exact absurd (by assumption) (noPhase _)
  | rxNothing | rxSelectDrive | rxHead | rxSeekAtTrack0 | rxSeekHere | rxSeekHome | rxSeekAway | rxCheckDisk | rxMotorOff | rxMotorOn |
    rxRead | rxHandshake => exact absurd (by assumption) (noFrame _)
  | pulseTrack0 | pulseArrived | pulseOnward | settled | spunUp | timedOut => exact absurd (by assumption) noWake
  | _ => rfl

/-! ### The queue's rows -/

theorem QueueMove.queue_eq (h : QueueMove s t) (hn : ¬s.pushNext) :
    t.qbuf = s.qbuf ∧ t.qWr = s.qWr ∧ (¬s.mainNext .drain → t.qPend = s.qPend) := by
  cases h with
  | keep same => exact ⟨same.qbuf, same.qWr, fun _ => same.qPend⟩
  | push b hb next same => exact absurd next hn
  | pushTwice hc same => exact absurd (pushNext_of_capture hc) hn
  | marker he ho same => exact absurd (pushNext_of_tick he ho) hn
  | drain hm hp ha same => exact ⟨same.qbuf, same.qWr, absurd hm⟩

/-- A push sets the overflow flag only into a full queue (R182). -/
theorem State.push_qOvf_true {b : Byte} {s : State} (h : (s.push b).qOvf = true) : s.qPend.toNat = 128 ∨ s.qOvf = true := by
  rw [State.push_qOvf] at h
  by_cases full : s.queueFull = true
  · exact .inl (beq_iff_eq.1 full)
  · rw [if_neg full] at h
    exact .inr h

/-- A push never clears the overflow flag. -/
theorem State.push_qOvf_of_true {b : Byte} {s : State} (h : s.qOvf = true) : (s.push b).qOvf = true := by
  rw [State.push_qOvf, h, ite_self]

theorem State.push_qPend_full {b : Byte} {s : State} (h : (s.push b).qPend.toNat = 128) :
    s.qPend.toNat = 128 ∨ s.qPend.toNat = 127 := by
  rw [State.push_qPend] at h
  by_cases full : s.queueFull = true
  · exact .inl (beq_iff_eq.1 full)
  · rw [if_neg full] at h
    bv_omega

theorem QueueMove.overflow_set (h : QueueMove s t) (hs : s.qOvf = false) (ht : t.qOvf = true) :
    s.pushNext ∧ (s.qPend.toNat = 128 ∨ s.qPend.toNat = 127 ∧ s.captureNext) := by
  cases h with
  | keep same => simp [same.qOvf, hs] at ht
  | push b hb hn same =>
    rcases State.push_qOvf_true (same.qOvf ▸ ht) with full | set
    · exact ⟨hn, .inl full⟩
    · simp [hs] at set
  | pushTwice hc same =>
    refine ⟨pushNext_of_capture hc, ?_⟩
    rcases State.push_qOvf_true (same.qOvf ▸ ht) with full | set
    · exact (State.push_qPend_full full).imp_right (⟨·, hc⟩)
    · rcases State.push_qOvf_true set with full | set
      · exact .inl full
      · simp [hs] at set
  | marker he ho same => simp [ho] at hs
  | drain hm hp ha same => simp [same.qOvf, hs] at ht

theorem QueueMove.overflow_cleared (h : QueueMove s t) (hs : s.qOvf = true) (ht : t.qOvf = false) : s.nextEvent = .tick := by
  cases h with
  | keep same => simp [same.qOvf, hs] at ht
  | push b hb hn same => rw [same.qOvf, State.push_qOvf_of_true hs] at ht; cases ht
  | pushTwice hc same => rw [same.qOvf, State.push_qOvf_of_true (State.push_qOvf_of_true hs)] at ht; cases ht
  | marker he ho same => exact he
  | drain hm hp ha same => simp [same.qOvf, hs] at ht

end Writers

/-- Settles O39: one lemma for each row of the table, over the branches of a step. -/
theorem fieldsHaveOnlyTheirWriters : Obligations.FieldsHaveOnlyTheirWriters := by
  intro s t h
  have c := stepCase_of_step h
  have q := c.queueMove
  exact ⟨c.params, c.tick_eq, c.driveSel_eq, c.head_eq, c.motor_eq, c.tgtCyl_eq, c.position_eq, c.dir_eq, c.sched_eq, c.operation_eq,
    c.session_eq, c.idxLine_eq, q.queue_eq, q.pend_le, q.overflow_set, q.overflow_cleared, c.rxFifo_eq,
    fun he => ⟨c.mlPhase_eq he, c.txLog_eq he⟩⟩

/-! ### The edges of the transition summary -/

/-- Settles O38: the branches of a step that write `op_state` are the rows of the summary; every other branch leaves it. The invariant is
needed where a row names the state it leaves: an index edge is captured only in a session. -/
theorem opStateMovesOnlyAlongEdges : Obligations.OpStateMovesOnlyAlongEdges := by
  intro s t hi h
  cases stepCase_of_step h with
  | captureLast he hc hl hx =>
    exact .inr (.inr (.inr (.inr (.inr (.inr ⟨hc, hi.enabledReading.1 hc.1, hl, hx, rfl⟩)))))
  | rxSeekAtTrack0 pkt rest hn hf h0 => exact .inr (.inl ⟨0, hn, by decide, .inl ⟨.inl ⟨rfl, h0⟩, rfl⟩⟩)
  | rxSeekHere c pkt rest hn hf hle h0 hc => exact .inr (.inl ⟨c, hn, hle, .inl ⟨.inr ⟨h0, hc⟩, rfl⟩⟩)
  | rxSeekHome pkt rest hn hf h0 => exact .inr (.inl ⟨0, hn, by decide, .inr ⟨.inl ⟨rfl, h0⟩, rfl⟩⟩)
  | rxSeekAway c pkt rest hn hf hle h0 hc => exact .inr (.inl ⟨c, hn, hle, .inr ⟨.inr ⟨h0, hc⟩, rfl⟩⟩)
  | rxMotorOn v pkt rest hn hf hv => exact .inr (.inr (.inl ⟨v, hn, hv, rfl⟩))
  | rxRead i n pkt rest hn read =>
    refine .inr (.inr (.inr (.inl ⟨?_, rfl⟩)))
    rcases read with ⟨rfl, -⟩ | rfl
    · exact .inl hn
    · exact .inr ⟨n, hn⟩
  | pulseTrack0 hw ho h0 => exact .inr (.inr (.inr (.inr (.inl ⟨hw, ho, rfl, .inl h0⟩))))
  | pulseArrived hw ho h0 hc => exact .inr (.inr (.inr (.inr (.inl ⟨hw, ho, rfl, .inr hc⟩))))
  | pulseOnward hw ho => exact .inl ho.symm
  | settled hw ho => exact .inr (.inr (.inr (.inr (.inr (.inl ⟨hw, .inl ho, rfl⟩)))))
  | spunUp hw ho => exact .inr (.inr (.inr (.inr (.inr (.inl ⟨hw, .inr (.inl ho), rfl⟩)))))
  | timedOut hw ho => exact .inr (.inr (.inr (.inr (.inr (.inl ⟨hw, .inr (.inr ⟨ho, ((wakes_iff s).1 hw.2).2.1⟩), rfl⟩)))))
  | _ => exact .inl rfl

end Sys2Proof.Machine
end

section
/-! PROOFS. Single steps of MAIN, of INDEX, of HOST and of the sensors, and which states the model refuses (R84 to R94, R124, R129, R162 to R165,
R203, R205, R213, R271). -/

namespace Sys2Proof.Machine

/-! ### CYLINDER -/

theorem exec_cylinder_of_le {t : Byte} (h : t.toNat ≤ 79) (s : State) : exec (.cylinder t) s = .next (s.seek t) := by
  rw [exec_eq, effect_cylinder_of_le h]

/-- Settles O14: one clause for each outcome of the seek; the target above 79 is out of range. -/
theorem cylinderSeeksOrCompletesAtOnce : Obligations.CylinderSeeksOrCompletesAtOnce := by
  intro t s
  refine ⟨rfl, fun above => ?outOfRange, ?atTrack0, ?away, fun h0 hle here => ?here, fun h0 hle below => ?inward,
    fun h0 hle above => ?outward⟩
  case outOfRange => rw [exec_eq, effect_cylinder_of_gt above]
  case atTrack0 =>
    rintro rfl sensor
    exact ⟨_, by rw [exec_cylinder_of_le (by decide), seek_zero_atTrack0 sensor]; rfl, pushedOnto_push_code .done _⟩
  case away =>
    rintro rfl sensor
    rw [exec_cylinder_of_le (by decide), seek_zero_away sensor]
    rfl
  case here => exact ⟨_, by rw [exec_cylinder_of_le hle, seek_here h0 here]; rfl, pushedOnto_push_code .done _⟩
  case inward =>
    rw [exec_cylinder_of_le hle, seek_inward below]
    rfl
  case outward =>
    rw [exec_cylinder_of_le hle, seek_outward h0 above]
    rfl

/-! ### The immediate commands -/

/-- Settles O22: a command that is not arming is a push on the state with its own register written, a packet sent, or nothing. -/
theorem immediateCommandsKeepOperation : Obligations.ImmediateCommandsKeepOperation := by
  intro i s t immediate h
  rw [exec_eq] at h
  cases h
  cases i with
  | halt | checkDisk => rfl
  | selectDrive p => simp only [effect]; cases driveOperand p <;> rfl
  | head p => simp only [effect]; cases sideOperand p <;> rfl
  | cylinder c =>
    have above : 79 < c.toNat := by simpa [Instr.arming, Config.cylMax, BitVec.le_def] using immediate
    rw [effect_cylinder_of_gt above]
  | motor v =>
    obtain rfl : v = 0 := by simpa [Instr.arming] using immediate
    rfl
  | handshake => simp only [effect]; split <;> rfl
  | read | readMulti n => cases immediate

/-! ### The RX step -/

/-- Settles O23: the RX step is the command's effect on the state with the packet taken, then POLL. -/
theorem rxStepRunsDecodedFrame : Obligations.RxStepRunsDecodedFrame := fun s _ rest i hr hm hf hd hh =>
  ⟨effect i { s.afterChoice with rxFifo := rest }, exec_eq i _, step_rx_ok hr hm hf hd hh⟩

theorem decodeTableWord_eq_some_iff {nbits w : Nat} {i : Instr} :
    decodeTableWord nbits w = some i ↔ decode (packetOfWord nbits w) = .ok i := by
  unfold decodeTableWord
  cases decode (packetOfWord nbits w) <;> simp

/-- A HANDSHAKE word is placed before a host that accepts (log 11). -/
theorem withPacketNext_accepts {pkt : Packet} (h : decode pkt = .ok .handshake) (s : State) : (s.withPacketNext pkt).txAccept = true := by
  simp [State.withPacketNext, (decode_handshake_iff pkt).1 h, Opcode.code]

/-- Settles O24: the placed packet is at the head of `rx_fifo` with the RX step next, and taking it leaves the state it was placed in. -/
theorem fetchedWordRunsNext : Obligations.FetchedWordRunsNext := by
  intro s w i hr hw
  have hd := decodeTableWord_eq_some_iff.1 hw
  refine ⟨_, exec_eq i _, ?_⟩
  rw [step_rx_ok (s := s.withFetchWord 16 w) (rest := s.rxFifo) hr ⟨rfl, rfl⟩ rfl hd
    (by rintro rfl; exact withPacketNext_accepts hd s)]
  rfl

/-- Settles O26: with an empty `rx_fifo` the RX step only sets the phase. -/
theorem emptyFifoMovesToPoll : Obligations.EmptyFifoMovesToPoll := by
  intro s hr hm hf
  rw [step_rx hr hm, rxEffect_nil (s := s.afterChoice) hf]
  rfl

/-! ### The POLL step -/

/-- A POLL step whose wake condition is false only sets the phase (R124, R204). -/
theorem step_poll_quiet {s : State} (hr : s.refusal = none) (hm : s.mainNext .poll) (hw : s.wakes = false) :
    step s = .next { s.afterChoice with mlPhase := .drain } := by
  rw [step_poll hr hm, State.pollPhase, pollOnce_of_not_wakes (s := s.afterChoice) hw]
  rfl

/-- Settles O28: each of the three premises makes the wake condition false. -/
theorem pollWithoutWakeDoesNothing : Obligations.PollWithoutWakeDoesNothing := by
  intro s hr hm h
  refine step_poll_quiet hr hm ?_
  rw [Bool.eq_false_iff, Ne, wakes_iff]
  rintro ⟨busy, armed, due⟩
  rcases h with idle | disarmed | early
  · exact busy idle
  · simp [disarmed] at armed
  · simp [early] at due

/-! ### The index edges -/

theorem idxFall_of_low {s : State} (hl : s.idxLine = false) : s.idxFall = s := if_neg (Bool.eq_false_iff.1 hl)

theorem idxRise_of_high {s : State} (hl : s.idxLine = true) : s.idxRise = s := if_pos hl

theorem idxFall_of_qualifies {s : State} (hl : s.idxLine = true) (he : s.idxEn = true) :
    s.idxFall = State.capture { s with idxLine := false } := by
  rw [State.idxFall, if_pos hl, if_pos (show s.fallQualifies = true from he)]

theorem idxRise_of_qualifies {s : State} (hl : s.idxLine = false) (he : s.idxEn = true) (hm : s.idxMode = .both) :
    s.idxRise = State.capture { s with idxLine := true } := by
  have qualifies : s.riseQualifies = true := by simp [State.riseQualifies, he, hm]
  rw [State.idxRise, if_neg (Bool.eq_false_iff.1 hl), if_pos qualifies]

/-- An edge that qualifies moves the line and runs the capture reaction (R162, R164). -/
theorem step_capture {s : State} (hr : s.refusal = none) (hc : s.captureNext) :
    step s = .next (State.capture { s.afterChoice with idxLine := !s.idxLine }) := by
  obtain ⟨enabled, ⟨fall, line⟩ | ⟨rise, line, both⟩⟩ := hc
  · rw [step_event hr fall, eventEffect, idxFall_of_qualifies (s := s.afterChoice) line enabled, line]
    rfl
  · rw [step_event hr rise, eventEffect, idxRise_of_qualifies (s := s.afterChoice) line enabled both, line]
    rfl

/-- Both on-edges of the capture reaction in one equation: each leaves the trigger mode at both edges, and the first disarms the timeout (R165,
R166). -/
theorem capture_on {s : State} (hl : s.idxLatch = false) :
    s.capture = State.push Response.indexOn.code { s with
      idxLatch := true, revCount := (s.revCount + 1) % 2 ^ s.params.revW, idxMode := .both
      armed := if s.idxMode = .falling then false else s.armed } := by
  cases hm : s.idxMode with
  | falling => rw [capture_firstOn hl hm, if_pos rfl]
  | both => simp only [capture_laterOn hl hm, hm, reduceCtorEq, if_false]

/-- Settles O33: one clause for each outcome of the capture reaction. -/
theorem captureCountsAndEndsSession : Obligations.CaptureCountsAndEndsSession := by
  intro s hr hc
  dsimp only
  rw [step_capture hr hc]
  refine ⟨fun hl => ⟨_, rfl, ?on⟩, fun hl hx => ⟨_, rfl, ?off⟩, fun hl hx =>
    ⟨State.push Response.indexOff.code { s.afterChoice with idxLine := !s.idxLine, idxLatch := !s.idxLatch }, _, rfl,
      pushedOnto_push_code .indexOff _, ?last⟩⟩
  case on =>
    rw [capture_on (s := { s.afterChoice with idxLine := !s.idxLine }) hl, hl]
    exact pushedOnto_push_code .indexOn _
  case off =>
    rw [capture_off (s := { s.afterChoice with idxLine := !s.idxLine }) hl hx, hl]
    exact pushedOnto_push_code .indexOff _
  case last =>
    rw [capture_lastOff (s := { s.afterChoice with idxLine := !s.idxLine }) hl hx, hl]
    exact pushedOnto_push_code .done _

/-! ### The moves of HOST and of the sensors -/

theorem step_hostSend {s : State} {pkt : Packet} (hr : s.refusal = none) (he : s.nextEvent = .hostSend pkt) (hp : pkt.length ≤ 64) :
    step s = .next { s.afterChoice with rxFifo := s.rxFifo ++ [pkt] } := by
  have short : pkt.length ≤ Config.packetMax := hp
  rw [step_event hr he, eventEffect, State.hostSend, if_pos short]
  rfl

/-- Settles O34: the event of each move is its effect. -/
theorem hostAndSensorMovesSetInputs : Obligations.HostAndSensorMovesSetInputs := fun _ hr =>
  ⟨fun _ => step_hostSend hr, fun _ => step_event hr, fun _ => step_event hr, fun _ => step_event hr, fun _ => step_event hr⟩

/-- Settles O35: each of the three is guarded by the test of its event. -/
theorem impossibleMovesChangeNothing : Obligations.ImpossibleMovesChangeNothing := by
  intro s hr h
  rcases h with ⟨fall, low⟩ | ⟨rise, high⟩ | ⟨pkt, send, long⟩
  · rw [step_event hr fall, eventEffect, idxFall_of_low (s := s.afterChoice) low]
  · rw [step_event hr rise, eventEffect, idxRise_of_high (s := s.afterChoice) high]
  · have held : s.afterChoice.hostSend pkt = s.afterChoice := if_neg (Nat.not_le.2 long)
    rw [step_event hr send, eventEffect, held]

/-! ### The states that the model refuses -/

/-- A step refuses exactly the states that `State.refusal` names. -/
theorem step_refused_iff (s : State) : (∃ r, step s = .refused r) ↔ s.refusal ≠ none := by
  cases h : s.refusal with
  | none => simp [step_of_refusal h]
  | some r => simp [step, h]

/-- Settles O36: `State.refusal` is the only stop, and the bounds are those that `Params.valid` tests. -/
theorem onlyBadStartStatesStop : Obligations.OnlyBadStartStatesStop := by
  refine ⟨fun s => ?refused, fun s hr => ⟨_, step_of_refusal hr⟩, Params.valid_iff⟩
  case refused =>
    rw [step_refused_iff, Ne, refusal_none_iff, Classical.not_and_iff_not_or_not, Bool.not_eq_true, Classical.not_not]

end Sys2Proof.Machine
end

section
/-! PROOFS. The window of a wake (R103, R106, R108), and what a fair TIMER and a fair MAIN bring about (R101, R108, R200, R240). -/

namespace Sys2Proof.Machine

/-! ### The window of a wake -/

/-- Settles O9: the tick is its modular difference after `sched`, and no shorter distance gives the same tick. -/
theorem dueWindow : Obligations.DueWindow := by
  intro s valid range
  rw [State.due_iff]
  constructor
  · exact fun late => ⟨_, late, (tickDiff_spec range).symm⟩
  · rintro ⟨k, late, tick⟩
    rwa [tick, tickDiff_add _ _ _ (late.trans (Params.valid.lateBound_lt valid))]

theorem tickDiff_self (w a : Nat) : tickDiff w a a = 0 := by
  have zero : (tickDiff w a a : Int) = 0 := by rw [tickDiff_eq_emod, sub_self, Int.zero_emod]
  exact_mod_cast zero

/-- Before the `d`-th tick the modular difference has wrapped and is at least `2^TICK_W - d`, which a legal delay keeps outside the window. -/
theorem due_before {s : State} {t d j : Nat} (hj : j < d) (hd : d ≤ 2 ^ s.params.tickW - s.params.lateBound)
    (tick : s.tick = (t + j) % 2 ^ s.params.tickW) (sched : s.sched = (t + d) % 2 ^ s.params.tickW) : s.due = false := by
  rw [Bool.eq_false_iff, Ne, State.due_iff, tick, sched, tickDiff_before hj (by omega)]
  omega

theorem due_at {s : State} (valid : Params.valid s.params = true) (h : s.tick = s.sched) : s.due = true := by
  obtain ⟨-, positive, -⟩ := (Params.valid_iff _).1 valid
  rw [State.due_iff, h, tickDiff_self]
  exact positive

/-- Settles O10: a legal delay is one that the window leaves room for. -/
theorem armedWakeFirstDueAfterDelay : Obligations.ArmedWakeFirstDueAfterDelay := fun s o d valid _ legal =>
  ⟨fun j hj => due_before (s := { s.arm o d with tick := (s.tick + j) % 2 ^ s.params.tickW }) hj legal rfl rfl,
    due_at (s := { s.arm o d with tick := (s.tick + d) % 2 ^ s.params.tickW }) valid rfl⟩

/-! ### The next occurrence along a run -/

/-- What comes again and again has a first occurrence from any point on. -/
theorem exists_first {P : Nat → Prop} (h : ∀ n, ∃ m, n ≤ m ∧ P m) (n : Nat) :
    ∃ m, n ≤ m ∧ P m ∧ ∀ k, n ≤ k → k < m → ¬P k := by
  classical
  obtain ⟨le, occurs⟩ := Nat.find_spec (h n)
  exact ⟨_, le, occurs, fun k hk before hP => Nat.find_min (h n) before ⟨hk, hP⟩⟩

theorem eq_of_unchanged {α : Type} {f : Nat → α} {n m : Nat} (hnm : n ≤ m) (h : ∀ k, n ≤ k → k < m → f (k + 1) = f k) : f m = f n := by
  induction m, hnm using Nat.le_induction with
  | base => rfl
  | succ m hnm ih => exact (h m hnm (Nat.lt_succ_self m)).trans (ih fun k hk before => h k hk (before.trans (Nat.lt_succ_self m)))

theorem IsRun.stepCase {e : Nat → Event} {r : Nat → State} (h : IsRun e r) (n : Nat) :
    StepCase { r n with agenda := [e n] } (r (n + 1)) := stepCase_of_step (h n)

/-! ### TIMER -/

theorem IsRun.params {e : Nat → Event} {r : Nat → State} (h : IsRun e r) (n : Nat) : (r n).params = (r 0).params :=
  eq_of_unchanged (f := fun k => (r k).params) (Nat.zero_le n) fun k _ _ => (h.stepCase k).params

theorem tickStep_tick (s : State) : s.tickStep.tick = (s.tick + 1) % 2 ^ s.params.tickW := by
  cases ho : s.qOvf with
  | false => rw [tickStep_quiet ho]
  | true => rw [tickStep_overflow ho]; rfl

theorem tick_of_step_tick {s t : State} (he : s.nextEvent = .tick) (h : step s = .next t) :
    t.tick = (s.tick + 1) % 2 ^ s.params.tickW := by
  obtain ⟨-, rfl⟩ := step_next_iff.1 h
  rw [he]
  exact tickStep_tick s.afterChoice

theorem IsRun.tick_of_tick {e : Nat → Event} {r : Nat → State} (h : IsRun e r) {n : Nat} (he : e n = .tick) :
    (r (n + 1)).tick = ((r n).tick + 1) % 2 ^ (r n).params.tickW := tick_of_step_tick (s := { r n with agenda := [e n] }) he (h n)

/-- With a fair TIMER the counter advances by any number of ticks. -/
theorem IsRun.exists_tick_add {e : Nat → Event} {r : Nat → State} (h : IsRun e r) (fair : TimerFair e) (n k : Nat) :
    ∃ m, n ≤ m ∧ (r m).tick % 2 ^ (r 0).params.tickW = ((r n).tick + k) % 2 ^ (r 0).params.tickW := by
  induction k with
  | zero => exact ⟨n, le_refl n, rfl⟩
  | succ k ih =>
    obtain ⟨m, hm, tick⟩ := ih
    obtain ⟨m', hm', he, quiet⟩ := exists_first fair m
    have same : (r m').tick = (r m).tick := eq_of_unchanged (f := fun i => (r i).tick) hm' fun i hi before =>
      (h.stepCase i).tick_eq (quiet i hi before)
    refine ⟨m' + 1, by omega, ?_⟩
    rw [h.tick_of_tick he, same, h.params m', Nat.mod_mod, Nat.add_mod, tick, ← Nat.add_mod, Nat.add_assoc]

theorem IsRun.tickRange {e : Nat → Event} {r : Nat → State} (h : IsRun e r) (h0 : (r 0).tick < 2 ^ (r 0).params.tickW) (n : Nat) :
    (r n).tick < 2 ^ (r 0).params.tickW := by
  rw [← h.params n]
  induction n with
  | zero => exact h0
  | succ n ih => exact (h.stepCase n).tickRange ih

/-- Settles O54: from any point the counter advances by the modular difference to the value asked for. -/
theorem tickTakesEveryValueAgain : Obligations.TickTakesEveryValueAgain := by
  intro e r h fair h0 n v hv
  obtain ⟨m, hm, tick⟩ := h.exists_tick_add fair n (tickDiff (r 0).params.tickW v (r n).tick)
  rw [tickDiff_spec hv, Nat.mod_eq_of_lt (h.tickRange h0 m)] at tick
  exact ⟨m, hm, tick⟩

/-! ### MAIN -/

/-- The phase after a phase step that does not hold (R200). -/
def MlPhase.next : MlPhase → MlPhase
  | .drain => .rx
  | .rx => .poll
  | .poll => .drain

/-- While the host accepts, MAIN never holds (R202). -/
theorem mlPhase_of_main {s t : State} {p : MlPhase} (hm : s.mainNext p) (ha : s.txAccept = true) (h : step s = .next t) :
    t.mlPhase = p.next := by
  have hr := (step_next_iff.1 h).1
  cases p with
  | drain =>
    rw [step_drain hr hm] at h
    cases h
    rcases drainPhase_cases s.afterChoice with ⟨-, e⟩ | ⟨-, refuses, -⟩ | ⟨-, -, e⟩
    · rw [e]; rfl
    · exact absurd ha (Bool.eq_false_iff.1 refuses)
    · rw [e]; rfl
  | rx =>
    rw [step_rx hr hm] at h
    cases h
    rcases rxEffect_cases s.afterChoice with ⟨-, e⟩ | ⟨_, _, -, -, refuses, -⟩ | ⟨_, _, _, -, -, e⟩ |
      ⟨_, _, _, -, -, -, e⟩
    · rw [e]; rfl
    · exact absurd ha (Bool.eq_false_iff.1 refuses)
    · rw [e]; rfl
    · rw [e]; rfl
  | poll =>
    rw [step_poll hr hm] at h
    cases h
    rfl

/-- Each phase step is followed by one of the next phase. -/
theorem IsRun.exists_main_next {e : Nat → Event} {r : Nat → State} (h : IsRun e r) (main : ∀ n, ∃ m, n ≤ m ∧ e m = .main)
    (accepts : ∀ n, (r n).txAccept = true) {n : Nat} (he : e n = .main) :
    ∃ m, n ≤ m ∧ e m = .main ∧ (r m).mlPhase = (r n).mlPhase.next := by
  obtain ⟨m, hm, hem, quiet⟩ := exists_first main (n + 1)
  have same : (r m).mlPhase = (r (n + 1)).mlPhase := eq_of_unchanged (f := fun i => (r i).mlPhase) hm fun i hi before =>
    (h.stepCase i).mlPhase_eq (quiet i hi before)
  exact ⟨m, by omega, hem, same.trans (mlPhase_of_main (s := { r n with agenda := [e n] }) ⟨he, rfl⟩ (accepts n) (h n))⟩

theorem MlPhase.eq_or_next (p q : MlPhase) : p = q ∨ p = q.next ∨ p = q.next.next := by
  cases p <;> cases q <;> decide

/-- Settles O53: with a host that accepts MAIN is always enabled, so its step comes again and again, and three of them in a row take the three
phases. -/
theorem mainCyclesForEver : Obligations.MainCyclesForEver := by
  intro e r h fair accepts p n
  have main (k : Nat) : ∃ m, k ≤ m ∧ e m = .main := fair k fun m _ => .inl (accepts m)
  obtain ⟨m, hm, he⟩ := main n
  obtain ⟨m', hm', he', phase'⟩ := h.exists_main_next main accepts he
  obtain ⟨m'', hm'', he'', phase''⟩ := h.exists_main_next main accepts he'
  rcases p.eq_or_next (r m).mlPhase with rfl | rfl | rfl
  · exact ⟨m, hm, he, rfl⟩
  · exact ⟨m', hm.trans hm', he', phase'⟩
  · exact ⟨m'', hm.trans (hm'.trans hm''), he'', by rw [phase'', phase']⟩

end Sys2Proof.Machine
end

section
/-! PROOFS. Two runs side by side: the fields of the state that few steps read, and a relation between a state and other values of them. If the
shared updates keep the relation, every event does: the two states take the same branch. -/

namespace Sys2Proof.Machine

/-! ### Branches of shared operations that the model's laws leave to their case lemmas -/

theorem effect_handshake_of_refuses {s : State} (h : s.txAccept = false) : effect .handshake s = s := if_neg (Bool.eq_false_iff.1 h)

theorem wake_stays {s : State} (h : s.opState = .idle ∨ s.opState = .stepPulseHigh) : s.wake = s := by
  rcases h with h | h <;> simp only [State.wake, h]

theorem seek_away {s : State} {t : Byte} (h0 : t ≠ 0) (hc : t ≠ s.curCyl) :
    s.seek t = State.startPulse s.params.stepFirstDelay
      { s.cancel with tgtCyl := t, dir := if s.curCyl.toNat < t.toNat then .inward else .outward } := by
  rcases seek_cases t s with ⟨zero, -⟩ | ⟨-, here, -⟩ | ⟨zero, -⟩ | ⟨-, -, e⟩
  · exact absurd zero h0
  · exact absurd here hc
  · exact absurd zero h0
  · exact e

/-! ### The fields that few steps read -/

/-- The wake's tick, the queue's storage, the sensors and the agenda. -/
structure Hidden where
  sched : Nat
  qbuf : Memory
  trk0 : Bool
  diskPresent : Bool
  wpt : Bool
  agenda : List Event

def State.hidden (s : State) : Hidden where
  sched := s.sched
  qbuf := s.qbuf
  trk0 := s.trk0
  diskPresent := s.diskPresent
  wpt := s.wpt
  agenda := s.agenda

def State.withHidden (h : Hidden) (s : State) : State := { s with
  sched := h.sched, qbuf := h.qbuf, trk0 := h.trk0, diskPresent := h.diskPresent, wpt := h.wpt, agenda := h.agenda }

/-- A byte written into the storage of the other run. -/
def Hidden.write (a : Nat) (b : Byte) (h : Hidden) : Hidden := { h with qbuf := Memory.write h.qbuf a b }

/-- `K s h` relates a state to the hidden values of another run: it depends on the hidden fields, on whether a wake is armed and on the queue's
cursor and count, and each shared update of both runs keeps it. Related runs agree on what the due test and a sent block read. -/
structure Simulation (K : State → Hidden → Prop) : Prop where
  plain : ∀ {s t h}, t.hidden = s.hidden → (t.armed = true → s.armed = true) → t.qWr = s.qWr → t.qPend = s.qPend → K s h → K t h
  push : ∀ {s h b}, b ∈ pushedCodes → K s h → K (s.push b) (h.write s.qWr.toNat b)
  marker : ∀ {s h}, K s h → K (s.markerPush 0xC2) (h.write s.qWr.toNat 0xC2)
  arm : ∀ {s h o d}, K s h → K (s.arm o d) { h with sched := (s.tick + d) % 2 ^ s.params.tickW }
  drain : ∀ {s h}, 64 < s.qPend.toNat → K s h → K s.drainBlock h
  due : ∀ {s h}, s.armed = true → K s h → h.sched = s.sched
  block : ∀ {s h}, 64 < s.qPend.toNat → K s h → Memory.readBlock h.qbuf s.drainBase 64 = Memory.readBlock s.qbuf s.drainBase 64
  setTrk0 : ∀ {s h v}, K s h → K { s with trk0 := v } { h with trk0 := v }
  setDisk : ∀ {s h v}, K s h → K { s with diskPresent := v } { h with diskPresent := v }
  setWpt : ∀ {s h v}, K s h → K { s with wpt := v } { h with wpt := v }

/-- The second state is the first with other hidden values, related to it. -/
def Twins (K : State → Hidden → Prop) (s s' : State) : Prop := ∃ h, s' = s.withHidden h ∧ K s h

/-- The frame at the head of `rx_fifo` (R203). -/
def State.headFrame (s : State) (i : Instr) : Prop := ∃ pkt rest, s.rxFifo = pkt :: rest ∧ decode pkt = .ok i

/-- The two runs agree on the sensors that the event samples (R207, R122, R125; 70_reset_and_hazards.md section 3). -/
structure SensorsAgree (e : Event) (s : State) (h : Hidden) : Prop where
  disk : e = .main → s.mlPhase = .rx → s.headFrame .checkDisk → h.diskPresent = s.diskPresent
  seek : e = .main → s.mlPhase = .rx → s.headFrame (.cylinder 0) → h.trk0 = s.trk0
  pulse : e = .main → s.mlPhase = .poll → s.wakes = true → s.opState = .stepPulseLow → s.tgtCyl = 0 → h.trk0 = s.trk0

namespace Simulation

variable {K : State → Hidden → Prop} {s s' : State} {h : Hidden}

/-- An update of visible fields that leaves `armed`. -/
theorem visible (hK : Simulation K) (k : K s h) {t t' : State} (e : t' = t.withHidden h := by rfl) (hh : t.hidden = s.hidden := by rfl)
    (ha : t.armed = s.armed := by rfl) (hw : t.qWr = s.qWr := by rfl) (hp : t.qPend = s.qPend := by rfl) : Twins K t t' :=
  ⟨h, e, hK.plain hh (fun armed => ha ▸ armed) hw hp k⟩

/-- An update of visible fields that disarms. -/
theorem disarmed (hK : Simulation K) (k : K s h) {t t' : State} (e : t' = t.withHidden h := by rfl) (hh : t.hidden = s.hidden := by rfl)
    (ha : t.armed = false := by rfl) (hw : t.qWr = s.qWr := by rfl) (hp : t.qPend = s.qPend := by rfl) : Twins K t t' :=
  ⟨h, e, hK.plain hh (fun armed => absurd armed (ha ▸ Bool.false_ne_true)) hw hp k⟩

theorem twinPush (hK : Simulation K) {b : Byte} (hb : b ∈ pushedCodes) (r : Twins K s s') : Twins K (s.push b) (s'.push b) := by
  obtain ⟨h, rfl, k⟩ := r
  exact ⟨_, rfl, hK.push hb k⟩

theorem twinArm (hK : Simulation K) (r : Twins K s s') (o : OpState) (d : Nat) : Twins K (s.arm o d) (s'.arm o d) := by
  obtain ⟨h, rfl, k⟩ := r
  exact ⟨_, rfl, hK.arm k⟩

theorem twinIdle (hK : Simulation K) (r : Twins K s s') : Twins K s.goIdle s'.goIdle := by
  obtain ⟨h, rfl, k⟩ := r
  exact hK.disarmed k

theorem twinPhase (hK : Simulation K) (r : Twins K s s') (p : MlPhase) : Twins K (s.withPhase p) (s'.withPhase p) := by
  obtain ⟨h, rfl, k⟩ := r
  exact hK.visible k

/-! ### TIMER and INDEX -/

theorem tickStep (hK : Simulation K) (k : K s h) : Twins K s.tickStep (s.withHidden h).tickStep := by
  cases ho : s.qOvf with
  | false =>
    rw [tickStep_quiet ho, tickStep_quiet (s := s.withHidden h) ho]
    exact hK.visible k
  | true =>
    rw [tickStep_overflow ho, tickStep_overflow (s := s.withHidden h) ho]
    exact ⟨_, rfl, hK.marker (hK.plain (s := s) rfl id rfl rfl k)⟩

theorem capture (hK : Simulation K) (k : K s h) : Twins K s.capture (s.withHidden h).capture := by
  rcases capture_cases s with ⟨hl, hm, e⟩ | ⟨hl, hm, e⟩ | ⟨hl, hx, e⟩ | ⟨hl, hx, e⟩
  · rw [e, capture_firstOn (s := s.withHidden h) hl hm]
    exact hK.twinPush (by decide) (hK.disarmed k)
  · rw [e, capture_laterOn (s := s.withHidden h) hl hm]
    exact hK.twinPush (by decide) (hK.visible k)
  · rw [e, capture_off (s := s.withHidden h) hl hx]
    exact hK.twinPush (by decide) (hK.visible k)
  · rw [e, capture_lastOff (s := s.withHidden h) hl hx]
    have latchOff : Twins K (State.push Response.indexOff.code { s with idxLatch := false })
        (State.push Response.indexOff.code { s.withHidden h with idxLatch := false }) :=
      hK.twinPush (by decide) (hK.visible k)
    obtain ⟨h', e', k'⟩ := latchOff
    rw [e']
    exact hK.twinPush (by decide) (hK.disarmed k')

theorem idxFall (hK : Simulation K) (k : K s h) : Twins K s.idxFall (s.withHidden h).idxFall := by
  rcases idxFall_cases s with ⟨low, e⟩ | ⟨high, disabled, e⟩ | ⟨high, enabled, e⟩ <;> rw [e]
  · rw [idxFall_of_low (s := s.withHidden h) low]
    exact hK.visible k
  · rw [idxFall_of_not_qualifies (s := s.withHidden h) high disabled]
    exact hK.visible k
  · rw [idxFall_of_qualifies (s := s.withHidden h) high enabled]
    exact hK.capture (hK.plain (s := s) rfl id rfl rfl k)

theorem idxRise (hK : Simulation K) (k : K s h) : Twins K s.idxRise (s.withHidden h).idxRise := by
  rcases idxRise_cases s with ⟨high, e⟩ | ⟨low, unqualified, e⟩ | ⟨low, enabled, both, e⟩ <;> rw [e]
  · rw [idxRise_of_high (s := s.withHidden h) high]
    exact hK.visible k
  · rw [idxRise_of_not_qualifies (s := s.withHidden h) low (State.riseQualifies_eq_false unqualified)]
    exact hK.visible k
  · rw [idxRise_of_qualifies (s := s.withHidden h) low enabled both]
    exact hK.capture (hK.plain (s := s) rfl id rfl rfl k)

/-! ### The commands -/

theorem seek (hK : Simulation K) (k : K s h) {t : Byte} (sensor : t = 0 → h.trk0 = s.trk0) :
    Twins K (s.seek t) ((s.withHidden h).seek t) := by
  rcases seek_cases t s with ⟨rfl, h0, e⟩ | ⟨h0, hc, e⟩ | ⟨rfl, h0, e⟩ | ⟨h0, hc, e⟩ <;> rw [e]
  · rw [seek_zero_atTrack0 (s := s.withHidden h) ((sensor rfl).trans h0)]
    exact hK.twinPush (by decide) (hK.disarmed k)
  · rw [seek_here (s := s.withHidden h) h0 hc]
    exact hK.twinPush (by decide) (hK.disarmed k)
  · rw [seek_zero_away (s := s.withHidden h) ((sensor rfl).trans h0)]
    exact hK.twinArm (hK.disarmed k) _ _
  · rw [seek_away (s := s.withHidden h) h0 hc]
    exact hK.twinArm (hK.disarmed k) _ _

theorem effect (hK : Simulation K) (k : K s h) {i : Instr} (disk : i = .checkDisk → h.diskPresent = s.diskPresent)
    (trk0 : i = .cylinder 0 → h.trk0 = s.trk0) : Twins K (effect i s) (effect i (s.withHidden h)) := by
  cases i with
  | halt => exact hK.visible k
  | selectDrive p =>
    simp only [Machine.effect]
    cases driveOperand p with
    | none => exact hK.visible k
    | some d => exact hK.twinPush (by decide) (hK.visible k)
  | head p =>
    simp only [Machine.effect]
    cases sideOperand p with
    | none => exact hK.visible k
    | some b => exact hK.twinPush (by decide) (hK.visible k)
  | cylinder t =>
    rcases Nat.lt_or_ge 79 t.toNat with above | legal
    · rw [effect_cylinder_of_gt above, effect_cylinder_of_gt above]
      exact hK.visible k
    · rw [effect_cylinder_of_le legal, effect_cylinder_of_le legal]
      exact hK.seek k fun h0 => trk0 (h0 ▸ rfl)
  | checkDisk =>
    have same : (s.withHidden h).diskPresent = s.diskPresent := disk rfl
    have coded : (if s.diskPresent then Response.diskLoaded else Response.noDisk).code ∈ pushedCodes := by split <;> decide
    simp only [Machine.effect, same]
    exact hK.twinPush coded (hK.visible k)
  | motor v =>
    by_cases off : v = 0
    · rw [off, effect_motor_off, effect_motor_off]
      exact hK.twinPush (by decide) (hK.visible k)
    · rw [effect_motor_on off, effect_motor_on off]
      exact hK.twinArm (hK.disarmed k) _ _
  | read | readMulti n => exact hK.twinArm (hK.disarmed k) _ _
  | handshake =>
    cases ha : s.txAccept with
    | true =>
      rw [effect_handshake ha, effect_handshake (s := s.withHidden h) ha]
      exact hK.visible k
    | false =>
      rw [effect_handshake_of_refuses ha, effect_handshake_of_refuses (s := s.withHidden h) ha]
      exact hK.visible k

/-! ### MAIN -/

theorem drainPhase (hK : Simulation K) (k : K s h) : Twins K s.drainPhase (s.withHidden h).drainPhase := by
  rcases drainPhase_cases s with ⟨few, e⟩ | ⟨more, refuses, e⟩ | ⟨more, accepts, e⟩ <;> rw [e]
  · rw [drainPhase_of_le (s := s.withHidden h) few]
    exact hK.visible k
  · rw [drainPhase_of_not_accept (s := s.withHidden h) more refuses]
    exact hK.visible k
  · have sent : (s.withHidden h).drainBlock = s.drainBlock.withHidden h := by
      have block : Memory.readBlock (s.withHidden h).qbuf (s.withHidden h).drainBase Config.qBlock =
          Memory.readBlock s.qbuf s.drainBase Config.qBlock := hK.block more k
      rw [State.drainBlock, block]
      rfl
    rw [drainPhase_of_accept (s := s.withHidden h) more accepts, sent]
    exact hK.visible (hK.drain more k)

theorem wakeStepPulseLow (hK : Simulation K) (k : K s h) (sensor : s.tgtCyl = 0 → h.trk0 = s.trk0) :
    Twins K s.wakeStepPulseLow (s.withHidden h).wakeStepPulseLow := by
  by_cases h0 : s.tgtCyl = 0 ∧ s.trk0 = true
  · have h0' : (s.withHidden h).tgtCyl = 0 ∧ (s.withHidden h).trk0 = true := ⟨h0.1, (sensor h0.1).trans h0.2⟩
    rw [wakeStepPulseLow_track0 h0, wakeStepPulseLow_track0 h0']
    exact hK.twinArm (hK.visible k) _ _
  · have h0' : ¬((s.withHidden h).tgtCyl = 0 ∧ (s.withHidden h).trk0 = true) := fun both =>
      h0 ⟨both.1, (sensor both.1).symm.trans both.2⟩
    by_cases hc : cylinderAfterPulse s.dir s.curCyl = s.tgtCyl
    · rw [wakeStepPulseLow_arrived h0 hc, wakeStepPulseLow_arrived h0' hc]
      exact hK.twinArm (hK.visible k) _ _
    · rw [wakeStepPulseLow_onward h0 hc, wakeStepPulseLow_onward h0' hc]
      exact hK.twinArm (hK.visible k) _ _

theorem wake (hK : Simulation K) (k : K s h) (sensor : s.opState = .stepPulseLow → s.tgtCyl = 0 → h.trk0 = s.trk0) :
    Twins K s.wake (s.withHidden h).wake := by
  cases ho : s.opState with
  | idle =>
    rw [wake_stays (.inl ho), wake_stays (s := s.withHidden h) (.inl ho)]
    exact hK.visible k
  | stepPulseHigh =>
    rw [wake_stays (.inr ho), wake_stays (s := s.withHidden h) (.inr ho)]
    exact hK.visible k
  | stepPulseLow =>
    rw [wake_stepPulseLow ho, wake_stepPulseLow (s := s.withHidden h) ho]
    exact hK.wakeStepPulseLow k (sensor ho)
  | stepSettle =>
    rw [wake_stepSettle ho, wake_stepSettle (s := s.withHidden h) ho]
    exact hK.twinIdle (hK.twinPush (by decide) (hK.visible k))
  | spinningUp =>
    rw [wake_spinningUp ho, wake_spinningUp (s := s.withHidden h) ho]
    exact hK.twinIdle (hK.twinPush (by decide) (hK.visible k))
  | reading =>
    rw [wake_reading ho, wake_reading (s := s.withHidden h) ho]
    obtain ⟨h', e, k'⟩ := hK.twinPush (b := Response.indexTimeout.code) (by decide) (hK.visible k)
    refine hK.twinIdle ?_
    rw [State.respond_eq, State.respond_eq, e]
    exact hK.visible k'

theorem wakes_eq (hK : Simulation K) (k : K s h) : (s.withHidden h).wakes = s.wakes := by
  cases ha : s.armed with
  | false => simp [State.wakes, State.withHidden, ha]
  | true =>
    have same : (s.withHidden h).due = s.due := by simp only [State.due, State.withHidden, hK.due ha k]
    simp only [State.wakes, same]
    rfl

theorem pollPhase (hK : Simulation K) (k : K s h)
    (sensor : s.wakes = true → s.opState = .stepPulseLow → s.tgtCyl = 0 → h.trk0 = s.trk0) :
    Twins K s.pollPhase (s.withHidden h).pollPhase := by
  refine hK.twinPhase ?_ .drain
  cases hw : s.wakes with
  | false =>
    rw [pollOnce_of_not_wakes hw, pollOnce_of_not_wakes ((hK.wakes_eq k).trans hw)]
    exact hK.visible k
  | true =>
    rw [pollOnce_of_wakes hw, pollOnce_of_wakes ((hK.wakes_eq k).trans hw)]
    exact hK.wake k (sensor hw)

theorem rxEffect (hK : Simulation K) (k : K s h) (disk : s.headFrame .checkDisk → h.diskPresent = s.diskPresent)
    (trk0 : s.headFrame (.cylinder 0) → h.trk0 = s.trk0) : Twins K (rxEffect s) (rxEffect (s.withHidden h)) := by
  rcases rxEffect_cases s with ⟨hf, e⟩ | ⟨pkt, rest, hf, hd, ha, e⟩ | ⟨pkt, rest, x, hf, hd, e⟩ | ⟨pkt, rest, i, hf, hd, hh, e⟩ <;> rw [e]
  · rw [rxEffect_nil (s := s.withHidden h) hf]
    exact hK.visible k
  · rw [rxEffect_hold (s := s.withHidden h) hf ((holdsForReply_iff _ _).2 ⟨hd, ha⟩)]
    exact hK.visible k
  · rw [rxEffect_error (s := s.withHidden h) hf hd]
    exact hK.visible k
  · rw [rxEffect_ok (s := s.withHidden h) hf hd hh]
    have taken : K { s with rxFifo := rest } h := hK.plain (s := s) rfl id rfl rfl k
    exact hK.twinPhase (hK.effect taken (fun hi => disk ⟨pkt, rest, hf, hi ▸ hd⟩) fun hi => trk0 ⟨pkt, rest, hf, hi ▸ hd⟩) .poll

/-! ### Events -/

theorem mainEffect (hK : Simulation K) (k : K s h) (agree : SensorsAgree .main s h) :
    Twins K (mainEffect s) (mainEffect (s.withHidden h)) := by
  have phase : (s.withHidden h).mlPhase = s.mlPhase := rfl
  unfold Machine.mainEffect
  rw [phase]
  cases hp : s.mlPhase with
  | drain => exact hK.drainPhase k
  | rx => exact hK.rxEffect k (agree.disk rfl hp) (agree.seek rfl hp)
  | poll => exact hK.pollPhase k (agree.pulse rfl hp)

theorem eventEffect (hK : Simulation K) (k : K s h) {e : Event} (agree : SensorsAgree e s h) :
    Twins K (eventEffect e s) (eventEffect e (s.withHidden h)) := by
  cases e with
  | tick => exact hK.tickStep k
  | idxFall => exact hK.idxFall k
  | idxRise => exact hK.idxRise k
  | main => exact hK.mainEffect k agree
  | hostSend pkt =>
    by_cases short : pkt.length ≤ Config.packetMax
    · simp only [Machine.eventEffect, State.hostSend, if_pos short]
      exact hK.visible k
    · simp only [Machine.eventEffect, State.hostSend, if_neg short]
      exact hK.visible k
  | hostAccept v => exact hK.visible k
  | setTrk0 v => exact ⟨_, rfl, hK.setTrk0 k⟩
  | setDisk v => exact ⟨_, rfl, hK.setDisk k⟩
  | setWpt v => exact ⟨_, rfl, hK.setWpt k⟩

end Simulation
end Sys2Proof.Machine
end

section
/-! PROOFS. What no step reads: the write-protect input, the other sensors but where they are sampled, `sched` while no wake is armed, and the
bytes that the queue's storage held at reset (R44, R52, R166; 70_reset_and_hazards.md section 3). -/

namespace Sys2Proof.Machine

/-! ### Two steps side by side -/

theorem SensorsAgree.of_eq {e : Event} {s : State} {h : Hidden} (disk : h.diskPresent = s.diskPresent) (trk0 : h.trk0 = s.trk0) :
    SensorsAgree e s h :=
  ⟨fun _ _ _ => disk, fun _ _ _ => trk0, fun _ _ _ _ _ => trk0⟩

/-- Two states of which one steps, and which are related once the same event has been chosen, both step, to related states. -/
theorem Simulation.step {K : State → Hidden → Prop} (hK : Simulation K) {s s' t : State} {h : Hidden}
    (e : s'.afterChoice = s.afterChoice.withHidden h) (k : K s.afterChoice h) (he : s'.nextEvent = s.nextEvent)
    (agree : SensorsAgree s.nextEvent s.afterChoice h) (hs : step s = .next t) : ∃ t', step s' = .next t' ∧ Twins K t t' := by
  obtain ⟨hr, rfl⟩ := step_next_iff.1 hs
  have hr' : s'.afterChoice.refusal = none := by
    rw [e]
    exact hr
  refine ⟨_, step_of_refusal hr', ?_⟩
  rw [he, e]
  exact hK.eventEffect k agree

/-! ### The sensors -/

/-- Other values of the sensors, those that a condition names excepted. -/
structure SameButSensors (trk0Same diskSame wptSame : Prop) (x h : Hidden) : Prop where
  sched : h.sched = x.sched
  qbuf : h.qbuf = x.qbuf
  agenda : h.agenda = x.agenda
  trk0 : trk0Same → h.trk0 = x.trk0
  disk : diskSame → h.diskPresent = x.diskPresent
  wpt : wptSame → h.wpt = x.wpt

theorem simulation_sensors (z d w : Prop) : Simulation fun s h => SameButSensors z d w s.hidden h where
  plain hh _ _ _ k := hh ▸ k
  push _ k := ⟨k.sched, congrArg (Memory.write · _ _) k.qbuf, k.agenda, k.trk0, k.disk, k.wpt⟩
  marker k := ⟨k.sched, congrArg (Memory.write · _ _) k.qbuf, k.agenda, k.trk0, k.disk, k.wpt⟩
  arm k := ⟨rfl, k.qbuf, k.agenda, k.trk0, k.disk, k.wpt⟩
  drain _ k := k
  due _ k := k.sched
  block _ k := congrArg (Memory.readBlock · _ _) k.qbuf
  setTrk0 k := ⟨k.sched, k.qbuf, k.agenda, fun _ => rfl, k.disk, k.wpt⟩
  setDisk k := ⟨k.sched, k.qbuf, k.agenda, k.trk0, fun _ => rfl, k.wpt⟩
  setWpt k := ⟨k.sched, k.qbuf, k.agenda, k.trk0, k.disk, fun _ => rfl⟩

theorem SameButSensors.withHidden_eq {z d w : Prop} {t : State} {h : Hidden} (k : SameButSensors z d w t.hidden h) :
    t.withHidden h = { t with trk0 := h.trk0, diskPresent := h.diskPresent, wpt := h.wpt } := by
  simp only [State.withHidden, k.sched, k.qbuf, k.agenda]
  rfl

/-- Settles O43: a step samples the other two sensors only, on which the two states agree. -/
theorem writeProtectNeverRead : Obligations.WriteProtectNeverRead := by
  intro s t v hs
  have start : SameButSensors True True False s.afterChoice.hidden { s.afterChoice.hidden with wpt := v } :=
    ⟨rfl, rfl, rfl, fun _ => rfl, fun _ => rfl, nofun⟩
  obtain ⟨t', hs', h', e, k⟩ := (simulation_sensors True True False).step (s' := { s with wpt := v }) rfl start rfl (.of_eq rfl rfl) hs
  refine ⟨h'.wpt, ?_⟩
  rw [hs', e, k.withHidden_eq, k.trk0 trivial, k.disk trivial]
  rfl

/-- Only SENSORS changes the disk-present input. -/
theorem StepCase.diskPresent_eq {s t : State} (h : StepCase s t) (he : ∀ x, s.nextEvent ≠ .setDisk x) : t.diskPresent = s.diskPresent := by
  cases h with
  | setDisk v sets => exact absurd sets (he v)
  | _ => rfl

/-- Only SENSORS changes the track-0 input. -/
theorem StepCase.trk0_eq {s t : State} (h : StepCase s t) (he : ∀ x, s.nextEvent ≠ .setTrk0 x) : t.trk0 = s.trk0 := by
  cases h with
  | setTrk0 v sets => exact absurd sets (he v)
  | _ => rfl

/-- Settles O44: the sampling points that the premises leave out are those of `SensorsAgree`; which value the input has afterwards, its writer
says. -/
theorem sensorsReadOnlyWhereSampled : Obligations.SensorsReadOnlyWhereSampled := by
  intro s t v hs
  refine ⟨fun noCheck noSet => ?disk, fun noSeek noPulse noSet => ?trk0⟩
  case disk =>
    have start : SameButSensors True False True s.afterChoice.hidden { s.afterChoice.hidden with diskPresent := v } :=
      ⟨rfl, rfl, rfl, fun _ => rfl, nofun, fun _ => rfl⟩
    have agree : SensorsAgree s.nextEvent s.afterChoice { s.afterChoice.hidden with diskPresent := v } :=
      ⟨fun he hp hf => absurd ⟨⟨he, hp⟩, hf⟩ noCheck, fun _ _ _ => rfl, fun _ _ _ _ _ => rfl⟩
    obtain ⟨t', hs', h', rfl, k⟩ :=
      (simulation_sensors True False True).step (s' := { s with diskPresent := v }) rfl start rfl agree hs
    have kept : h'.diskPresent = v := (stepCase_of_step hs').diskPresent_eq noSet
    rw [hs', k.withHidden_eq, k.trk0 trivial, k.wpt trivial, kept]
    rfl
  case trk0 =>
    have start : SameButSensors False True True s.afterChoice.hidden { s.afterChoice.hidden with trk0 := v } :=
      ⟨rfl, rfl, rfl, nofun, fun _ => rfl, fun _ => rfl⟩
    have agree : SensorsAgree s.nextEvent s.afterChoice { s.afterChoice.hidden with trk0 := v } :=
      ⟨fun _ _ _ => rfl, fun he hp hf => absurd ⟨⟨he, hp⟩, hf⟩ noSeek, fun he hp hw ho h0 => absurd ⟨⟨⟨he, hp⟩, hw⟩, ho, h0⟩ noPulse⟩
    obtain ⟨t', hs', h', rfl, k⟩ := (simulation_sensors False True True).step (s' := { s with trk0 := v }) rfl start rfl agree hs
    have kept : h'.trk0 = v := (stepCase_of_step hs').trk0_eq noSet
    rw [hs', k.withHidden_eq, k.disk trivial, k.wpt trivial, kept]
    rfl

/-! ### `sched` while no wake is armed -/

/-- Another number in `sched`, the same one while a wake is armed. -/
def SameButSched (s : State) (h : Hidden) : Prop := ∃ c, h = { s.hidden with sched := c } ∧ (s.armed = true → c = s.sched)

theorem simulation_sched : Simulation SameButSched where
  plain := by
    rintro s t _ hh ha - - ⟨c, rfl, hc⟩
    have same : t.sched = s.sched := congrArg Hidden.sched hh
    exact ⟨c, by rw [hh], fun armed => same ▸ hc (ha armed)⟩
  push := by rintro s _ b - ⟨c, rfl, hc⟩; exact ⟨c, rfl, hc⟩
  marker := by rintro s _ ⟨c, rfl, hc⟩; exact ⟨c, rfl, hc⟩
  arm := by rintro s _ o d ⟨c, rfl, -⟩; exact ⟨_, rfl, fun _ => rfl⟩
  drain := by rintro s _ - ⟨c, rfl, hc⟩; exact ⟨c, rfl, hc⟩
  due := by rintro s _ armed ⟨c, rfl, hc⟩; exact hc armed
  block := by rintro s _ - ⟨c, rfl, -⟩; rfl
  setTrk0 := by rintro s _ v ⟨c, rfl, hc⟩; exact ⟨c, rfl, hc⟩
  setDisk := by rintro s _ v ⟨c, rfl, hc⟩; exact ⟨c, rfl, hc⟩
  setWpt := by rintro s _ v ⟨c, rfl, hc⟩; exact ⟨c, rfl, hc⟩

/-- A step that leaves no wake armed where none was leaves `sched`: each of its writers arms one. -/
theorem StepCase.sched_of_disarmed {s t : State} (h : StepCase s t) (hs : s.armed = false) (ht : t.armed = false) : t.sched = s.sched := by
  have noWake : ¬s.wakeNext := fun hw => by simpa [hs] using ((wakes_iff s).1 hw.2).2.1
  cases h with
  | rxSeekHome | rxSeekAway | rxMotorOn | rxRead => cases ht
  | pulseTrack0 | pulseArrived | pulseOnward => exact absurd (by assumption) noWake
  | _ => rfl

/-- Settles O55: while no wake is armed the due test is not asked, and a step that arms one writes the same `sched` in both runs. -/
theorem disarmedSchedNeverRead : Obligations.DisarmedSchedNeverRead := by
  intro s t v hs h
  obtain ⟨t', h', -, rfl, c, rfl, hc⟩ := simulation_sched.step (s' := { s with sched := v }) (h := { s.afterChoice.hidden with sched := v })
    rfl ⟨v, rfl, fun armed => by simp [hs] at armed⟩ rfl (.of_eq rfl rfl) h
  refine ⟨c, h', ?_, rfl⟩
  cases ht : t.armed with
  | true => exact hc ht
  | false => exact (stepCase_of_step h').sched_of_disarmed hs ht

/-! ### The storage at reset -/

/-- The storages of two runs with the same cursor and count agree everywhere; or, in the cursor's first round, below the cursor, and no more
bytes are pending than that. -/
def Synced (m n : Memory) (w : BitVec 7) (p : BitVec 8) : Prop :=
  (∀ a, a < 128 → Memory.read m a = Memory.read n a) ∨
    ((∀ a, a < w.toNat → Memory.read m a = Memory.read n a) ∧ p.toNat ≤ w.toNat)

theorem Synced.of_fewer {m n : Memory} {w : BitVec 7} {p p' : BitVec 8} (h : Synced m n w p) (hp : p'.toNat ≤ p.toNat) : Synced m n w p' :=
  h.imp_right fun ⟨below, count⟩ => ⟨below, hp.trans count⟩

/-- The same listed byte at the cursor of both: the last byte of the first round makes them agree everywhere. -/
theorem Synced.write {m n : Memory} {w : BitVec 7} {p p' : BitVec 8} {b : Byte} (h : Synced m n w p) (hb : b ≠ Memory.unlisted)
    (hp : p'.toNat ≤ p.toNat + 1) : Synced (Memory.write m w.toNat b) (Memory.write n w.toNat b) (w + 1) p' := by
  have agree {a : Nat} (old : a ≠ w.toNat → Memory.read m a = Memory.read n a) :
      Memory.read (Memory.write m w.toNat b) a = Memory.read (Memory.write n w.toNat b) a := by
    rw [Memory.read_write_of_ne hb, Memory.read_write_of_ne hb]
    split
    · rfl
    · next other => exact old other
  rcases h with all | ⟨below, count⟩
  · exact .inl fun a ha => agree fun _ => all a ha
  · by_cases last : w.toNat = 127
    · exact .inl fun a ha => agree fun other => below a (by omega)
    · have next : (w + 1).toNat = w.toNat + 1 := by bv_omega
      exact .inr ⟨fun a ha => agree fun other => below a (by omega), by omega⟩

/-- A block is sent only from where the storages agree: in the first round it lies below the cursor. -/
theorem Synced.block {s : State} {n : Memory} (h : Synced s.qbuf n s.qWr s.qPend) (more : 64 < s.qPend.toNat) :
    Memory.readBlock n s.drainBase 64 = Memory.readBlock s.qbuf s.drainBase 64 := by
  have base := s.drainBase_cases
  refine List.map_congr_left fun i hi => ?_
  rw [List.mem_range] at hi
  rcases h with all | ⟨below, count⟩
  · exact (all _ (by omega)).symm
  · exact (below _ (by omega)).symm

/-- Another storage, in step with that of `s`. -/
def SameButStorage (s : State) (h : Hidden) : Prop := ∃ n, h = { s.hidden with qbuf := n } ∧ Synced s.qbuf n s.qWr s.qPend

theorem push_qPend_le (b : Byte) (s : State) : (s.push b).qPend.toNat ≤ s.qPend.toNat + 1 := by
  rw [State.push_qPend]
  split <;> bv_omega

theorem markerPush_qPend_le (b : Byte) (s : State) : (s.markerPush b).qPend.toNat ≤ s.qPend.toNat + 1 := by
  rw [State.markerPush_qPend]
  split <;> bv_omega

theorem simulation_storage : Simulation SameButStorage where
  plain := by
    rintro s t _ hh - hw hp ⟨n, rfl, sync⟩
    have same : t.qbuf = s.qbuf := congrArg Hidden.qbuf hh
    exact ⟨n, by rw [hh], by rwa [same, hw, hp]⟩
  push := by
    rintro s _ b hb ⟨n, rfl, sync⟩
    exact ⟨_, rfl, sync.write (pushedCodes_ne_unlisted hb) (push_qPend_le b s)⟩
  marker := by
    rintro s _ ⟨n, rfl, sync⟩
    exact ⟨_, rfl, sync.write (by decide) (markerPush_qPend_le _ s)⟩
  arm := by rintro s _ o d ⟨n, rfl, sync⟩; exact ⟨n, rfl, sync⟩
  drain := by
    rintro s _ more ⟨n, rfl, sync⟩
    have fewer : s.drainBlock.qPend.toNat ≤ s.qPend.toNat := by
      rw [State.drainBlock_qPend, Config.qBlock]
      bv_omega
    exact ⟨n, rfl, sync.of_fewer fewer⟩
  due := by rintro s _ - ⟨n, rfl, -⟩; rfl
  block := by rintro s _ more ⟨n, rfl, sync⟩; exact sync.block more
  setTrk0 := by rintro s _ v ⟨n, rfl, sync⟩; exact ⟨n, rfl, sync⟩
  setDisk := by rintro s _ v ⟨n, rfl, sync⟩; exact ⟨n, rfl, sync⟩
  setWpt := by rintro s _ v ⟨n, rfl, sync⟩; exact ⟨n, rfl, sync⟩

/-! ### Runs -/

theorem run_succ {s t : State} (h : step s = .next t) (k : Nat) : Host.Core.run Sys2Proof.core (k + 1) s = Host.Core.run Sys2Proof.core k t := by
  have hc : Sys2Proof.core.step s = .next t := h
  simp only [Host.Core.run, hc]

theorem run_succ_next {s t : State} {k : Nat} (h : Host.Core.run Sys2Proof.core (k + 1) s = .next t) :
    ∃ s1, step s = .next s1 ∧ Host.Core.run Sys2Proof.core k s1 = .next t := by
  cases hr : s.refusal with
  | none => exact ⟨_, step_of_refusal hr, (run_succ (step_of_refusal hr) k).symm.trans h⟩
  | some r =>
    have refused : Sys2Proof.core.step s = .refused r := by simp only [Sys2Proof.core, step, hr]
    simp only [Host.Core.run, refused, reduceCtorEq] at h

/-- Two runs that differ in the storage alone keep differing in it alone. -/
theorem run_sameButStorage {k : Nat} {s t : State} {n : Memory} (sync : Synced s.qbuf n s.qWr s.qPend)
    (h : Host.Core.run Sys2Proof.core k s = .next t) :
    ∃ n', Host.Core.run Sys2Proof.core k { s with qbuf := n } = .next { t with qbuf := n' } := by
  induction k generalizing s n with
  | zero =>
    cases h
    exact ⟨n, rfl⟩
  | succ k ih =>
    obtain ⟨s1, first, rest⟩ := run_succ_next h
    obtain ⟨_, first', -, rfl, n1, rfl, sync1⟩ := simulation_storage.step (s' := { s with qbuf := n })
      (h := { s.afterChoice.hidden with qbuf := n }) rfl ⟨n, rfl, sync⟩ rfl (.of_eq rfl rfl) first
    obtain ⟨n', last⟩ := ih sync1 rest
    exact ⟨n', (run_succ first' k).trans last⟩

/-- Settles O48: at reset nothing is pending and the cursor stands at 0, so any two storages are in step. -/
theorem resetStorageNeverObserved : Obligations.ResetStorageNeverObserved := by
  intro p line acc t0 disk wpt m n script k t h
  have atReset : Synced m n 0 0 := .inr ⟨fun a below => absurd below (Nat.not_lt_zero a), le_refl _⟩
  obtain ⟨n', h'⟩ := run_sameButStorage (n := n) atReset h
  exact ⟨{ t with qbuf := n' }, h', rfl, rfl⟩

end Sys2Proof.Machine
end

section
/-! PROOFS. A quiescent block (R212), and a seek to cylinder 0 (R131). -/

namespace Sys2Proof.Machine

/-! ### Quiescence -/

theorem StepCase.agenda_eq {s t : State} (h : StepCase s t) : t.agenda = s.agenda.tail := by cases h <;> rfl

section Quiescent
variable {s t : State}

theorem State.Quiescent.no_rxNext (q : s.Quiescent) (i : Instr) : ¬s.rxNext i := by
  obtain ⟨-, -, -, -, -, empty⟩ := q
  rintro ⟨-, pkt, rest, hf, -⟩
  simp [empty] at hf

theorem State.Quiescent.no_armingNext (q : s.Quiescent) : ¬s.armingNext := fun ⟨i, _, hn⟩ => q.no_rxNext i hn

theorem State.Quiescent.no_wakeNext (q : s.Quiescent) : ¬s.wakeNext := fun hw => ((wakes_iff s).1 hw.2).1 q.1

theorem State.Quiescent.no_captureNext (q : s.Quiescent) : ¬s.captureNext := by
  obtain ⟨-, -, disabled, -⟩ := q
  exact fun hc => absurd hc.1 (Bool.eq_false_iff.1 disabled)

theorem State.Quiescent.no_pushNext (q : s.Quiescent) : ¬s.pushNext := by
  have noCapture := q.no_captureNext
  have noWake := q.no_wakeNext
  have noFrame := q.no_rxNext
  obtain ⟨-, -, -, noOverflow, -⟩ := q
  rintro (⟨i, -, hn⟩ | ⟨hw, -⟩ | ⟨-, ho⟩ | hc)
  · exact noFrame i hn
  · exact noWake hw
  · exact absurd ho (Bool.eq_false_iff.1 noOverflow)
  · exact noCapture hc

/-- With at most a block pending and nothing to push, the queue stays (R186). -/
theorem State.Quiescent.sameQueue (q : s.Quiescent) (h : QueueMove s t) : SameQueue t s := by
  have noPush := q.no_pushNext
  obtain ⟨-, -, -, -, few, -⟩ := q
  cases h with
  | keep same => exact same
  | push b hb hn => exact absurd hn noPush
  | pushTwice hc => exact absurd (pushNext_of_capture hc) noPush
  | marker he ho => exact absurd (pushNext_of_tick he ho) noPush
  | drain hm more => omega

theorem State.Quiescent.rxFifo_eq (q : s.Quiescent) (h : StepCase s t) (noPacket : ∀ pkt, s.nextEvent ≠ .hostSend pkt) :
    t.rxFifo = [] := by
  obtain ⟨-, -, -, -, -, empty⟩ := q
  rcases h.rxFifo with same | ⟨-, pkt, taken⟩ | ⟨pkt, sends, -⟩
  · rw [same, empty]
  · simp [empty] at taken
  · exact absurd sends (noPacket pkt)

theorem State.Quiescent.txLog_eq (q : s.Quiescent) (h : StepCase s t) : t.txLog = s.txLog := by
  have noFrame := q.no_rxNext
  obtain ⟨-, -, -, -, few, -⟩ := q
  rcases h.txLog with same | ⟨-, more, -⟩ | ⟨hn, -⟩
  · exact same
  · omega
  · exact absurd hn (noFrame _)

theorem State.Quiescent.observe_eq (q : s.Quiescent) (h : StepCase s t) : t.observe = s.observe := by
  have noFrame := q.no_rxNext
  obtain ⟨-, stepN, pulses⟩ := h.position_eq (fun _ => noFrame _) fun hw => q.no_wakeNext hw.1
  obtain ⟨motor1, motor2⟩ := h.motor_eq fun _ => noFrame _
  have dir := h.dir_eq (fun _ => noFrame _) fun hw => q.no_wakeNext hw.1
  simp only [State.observe, State.lines, q.txLog_eq h, pulses, h.driveSel_eq fun _ => noFrame _, motor1, motor2, dir, stepN,
    h.head_eq fun _ => noFrame _]

theorem State.Quiescent.step (q : s.Quiescent) (h : StepCase s t) (noPacket : ∀ pkt, s.nextEvent ≠ .hostSend pkt) : t.Quiescent := by
  obtain ⟨armed, opState, idxEn⟩ := h.operation_eq q.no_armingNext q.no_wakeNext q.no_captureNext
  have same := q.sameQueue h.queueMove
  have empty := q.rxFifo_eq h noPacket
  obtain ⟨idle, disarmed, disabled, noOverflow, few, -⟩ := q
  exact ⟨opState.trans idle, armed.trans disarmed, idxEn.trans disabled, same.qOvf.trans noOverflow, same.qPend ▸ few, empty⟩

end Quiescent

/-- Settles O46: quiescence and the observation are kept by each step, and so along the agenda. -/
theorem quiescenceIsSilent : Obligations.QuiescenceIsSilent := by
  intro s k
  induction k generalizing s with
  | zero => exact fun _ q _ _ => ⟨s, rfl, q, rfl⟩
  | succ k ih =>
    intro hr q long noPacket
    rcases ha : s.agenda with _ | ⟨e, l⟩
    · simp [ha] at long
    have next : s.nextEvent = e := by simp only [State.nextEvent, ha]
    have first := step_of_refusal hr
    have c := stepCase_of_step first
    have noSend (pkt : Packet) : s.nextEvent ≠ .hostSend pkt := fun he =>
      noPacket pkt (by rw [ha, ← next, he]; exact List.mem_cons_self)
    have later := c.agenda_eq
    rw [ha, List.tail_cons] at later
    obtain ⟨t, rest, qt, seen⟩ := ih _ (c.refusal hr) (q.step c noSend)
      (by rw [later]; simpa [ha] using long) (by rw [later]; exact fun pkt hp => noPacket pkt (ha ▸ List.mem_cons_of_mem e hp))
    exact ⟨t, (run_succ first k).trans rest, qt, seen.trans (q.observe_eq c)⟩

/-! ### A seek to cylinder 0 -/

theorem exec_seekZero {s : State} (h0 : s.trk0 = false) : exec (.cylinder 0) s =
    .next (State.startPulse s.params.stepFirstDelay { s.cancel with tgtCyl := 0, dir := .outward }) := by
  rw [exec_cylinder_of_le (by decide), seek_zero_away h0]

theorem exec_seekZero_atTrack0 {s : State} (h0 : s.trk0 = true) : exec (.cylinder 0) s =
    .next (State.push Response.done.code { s.cancel with tgtCyl := 0, curCyl := 0 }) := by
  rw [exec_cylinder_of_le (by decide), seek_zero_atTrack0 h0]

/-- The progress depends on five fields alone. -/
theorem SeekZeroProgress.congr {m p0 : Nat} {s t : State} (h : SeekZeroProgress m p0 s) (ho : t.opState = s.opState)
    (ht : t.tgtCyl = s.tgtCyl) (hd : t.dir = s.dir) (hc : t.curCyl = s.curCyl) (hp : t.pulses = s.pulses) :
    SeekZeroProgress m p0 t := by
  unfold SeekZeroProgress at h ⊢
  rwa [ho, ht, hd, hc, hp]

/-- On the way no read session is open. -/
theorem SeekZeroProgress.not_reading {m p0 : Nat} {s : State} (h : SeekZeroProgress m p0 s) : s.opState ≠ .reading := by
  rcases h with ⟨ho, -⟩ | ⟨ho, -⟩ | ⟨ho, -⟩ <;> simp [ho]

/-- What a pulse wake finds on the way (R125). -/
theorem SeekZeroProgress.of_stepPulseLow {m p0 : Nat} {s : State} (h : SeekZeroProgress m p0 s) (ho : s.opState = .stepPulseLow) :
    s.tgtCyl = 0 ∧ s.dir = .outward ∧ 1 ≤ s.curCyl.toNat ∧ s.pulses.length + s.curCyl.toNat = p0 + m := by
  rcases h with ⟨-, h⟩ | ⟨settle, -⟩ | ⟨idle, -⟩
  · exact h
  · simp [ho] at settle
  · simp [ho] at idle

/-- Each wake of the seek completes one pulse, whatever the sensor reports, and moves one cylinder outward or to 0; every other step that is no
arming command leaves the progress as it is (R131). -/
theorem SeekZeroProgress.step {m p0 : Nat} {s t : State} (h : SeekZeroProgress m p0 s) (hi : s.Inv) (ha : ¬s.armingNext)
    (c : StepCase s t) : SeekZeroProgress m p0 t := by
  cases c with
  | captureLast he hc => exact absurd (hi.enabledReading.1 hc.1) h.not_reading
  | rxSeekAtTrack0 pkt rest hn => exact absurd (hn.armingNext rfl) ha
  | rxSeekHere c pkt rest hn hf hle => exact absurd (hn.armingNext (arming_cylinder hle)) ha
  | rxSeekHome pkt rest hn => exact absurd (hn.armingNext rfl) ha
  | rxSeekAway c pkt rest hn hf hle => exact absurd (hn.armingNext (arming_cylinder hle)) ha
  | rxMotorOn v pkt rest hn hf hv => exact absurd (hn.armingNext (arming_motor hv)) ha
  | rxRead i n pkt rest hn read => exact absurd (hn.armingNext (arming_read read)) ha
  | pulseTrack0 hw ho h0 =>
    obtain ⟨-, -, away, sum⟩ := h.of_stepPulseLow ho
    exact .inr (.inl ⟨rfl, rfl, by simp; omega⟩)
  | pulseArrived hw ho h0 arrived =>
    obtain ⟨target, -, away, sum⟩ := h.of_stepPulseLow ho
    exact .inr (.inl ⟨rfl, arrived.trans target, by simp; omega⟩)
  | pulseOnward hw ho h0 onward =>
    obtain ⟨target, outward, away, sum⟩ := h.of_stepPulseLow ho
    rw [outward, target] at onward
    have one_less : (s.curCyl - 1).toNat = s.curCyl.toNat - 1 := by bv_omega
    have left : 1 ≤ (s.curCyl - 1).toNat := by
      by_contra none
      exact onward (BitVec.eq_of_toNat_eq (by simp [cylinderAfterPulse]; omega))
    refine .inl ⟨rfl, target, outward, ?_, ?_⟩ <;> simp [outward, cylinderAfterPulse] <;> omega
  | settled hw ho =>
    rcases h with ⟨low, -⟩ | ⟨-, zero, count⟩ | ⟨idle, -⟩
    · simp [ho] at low
    · exact .inr (.inr ⟨rfl, zero, rfl, count⟩)
    · simp [ho] at idle
  | spunUp hw ho =>
    rcases h with ⟨low, -⟩ | ⟨settle, -⟩ | ⟨idle, -⟩
    · simp [ho] at low
    · simp [ho] at settle
    · simp [ho] at idle
  | timedOut hw ho => exact absurd ho h.not_reading
  | _ => exact h.congr rfl rfl rfl rfl rfl

/-- A POLL step that services a wake is that wake (R124). -/
theorem eq_of_wakeNext {s t : State} (hw : s.wakeNext) (h : step s = .next t) : t = s.afterChoice.wake.withPhase .drain := by
  obtain ⟨busy, armed, due⟩ := (wakes_iff s).1 hw.2
  rw [step_poll_wake (step_next_iff.1 h).1 hw.1 busy armed due] at h
  exact (Host.Outcome.next.inj h).symm

theorem wakeStepPulseLow_pulses (s : State) : s.wakeStepPulseLow.pulses = s.pulses ++ [{ dir := s.dir, tick := s.tick }] := by
  rcases wakeStepPulseLow_cases s with ⟨-, -, e⟩ | ⟨-, e⟩ | ⟨-, -, e⟩ <;> rw [e] <;> rfl

/-- Settles O50: the command starts the progress, each step keeps it, and the two wakes are a pulse and the end. -/
theorem seekToZeroEndsAtZero : Obligations.SeekToZeroEndsAtZero := by
  refine ⟨fun s known legal => ?start, fun m p0 s t hi progress ha h => ⟨?_, fun hw ho => ?pulse, fun hw ho => ?settled⟩⟩
  case start =>
    cases h0 : s.trk0 with
    | true => exact ⟨_, exec_seekZero_atTrack0 h0, nofun, fun _ => ⟨rfl, rfl, rfl⟩⟩
    | false => exact ⟨_, exec_seekZero h0, fun _ => .inl ⟨rfl, rfl, rfl, known, rfl⟩, nofun⟩
  case pulse =>
    rw [eq_of_wakeNext hw h, wake_stepPulseLow (s := s.afterChoice) ho]
    simp [wakeStepPulseLow_pulses]
  case settled =>
    rw [eq_of_wakeNext hw h, wake_stepSettle (s := s.afterChoice) ho]
    rfl
  · exact progress.step hi ha (stepCase_of_step h)

end Sys2Proof.Machine
end

section
/-! PROOFS. The run of a script as a fold of its events (R92), and the orders of a TICK and an index edge (R240). -/

namespace Sys2Proof.Machine

/-! ### Scripts -/

/-- The agenda alone is different. -/
theorem simulation_agenda (l : List Event) : Simulation fun s h => h = { s.hidden with agenda := l } where
  plain := by rintro s t _ hh - - - rfl; rw [hh]
  push := by rintro s _ b - rfl; rfl
  marker := by rintro s _ rfl; rfl
  arm := by rintro s _ o d rfl; rfl
  drain := by rintro s _ - rfl; rfl
  due := by rintro s _ - rfl; rfl
  block := by rintro s _ - rfl; rfl
  setTrk0 := by rintro s _ v rfl; rfl
  setDisk := by rintro s _ v rfl; rfl
  setWpt := by rintro s _ v rfl; rfl

/-- No event reads or writes the agenda. -/
theorem eventEffect_agenda (e : Event) (s : State) (l : List Event) :
    eventEffect e { s with agenda := l } = { eventEffect e s with agenda := l } := by
  obtain ⟨_, same, rfl⟩ := (simulation_agenda l).eventEffect (s := s) (h := { s.hidden with agenda := l }) rfl (e := e) (.of_eq rfl rfl)
  exact same

/-- The event `e` as a step of the state in which it comes next. -/
theorem stepCase_eventEffect {s : State} (hr : s.refusal = none) (e : Event) :
    StepCase { s with agenda := [e] } { eventEffect e s with agenda := [] } := by
  have first := step_event (s := { s with agenda := [e] }) (e := e) hr rfl
  rw [show ({ s with agenda := [e] } : State).afterChoice = { s with agenda := [] } from rfl, eventEffect_agenda] at first
  exact stepCase_of_step first

theorem eventEffect_refusal {s : State} (hr : s.refusal = none) (e : Event) : (eventEffect e s).refusal = none :=
  (stepCase_eventEffect hr e).refusal (s := { s with agenda := [e] }) hr

/-- The state after the listed events, one after the other. -/
def play (l : List Event) (s : State) : State := l.foldl (fun u e => eventEffect e u) s

@[simp] theorem play_nil (s : State) : play [] s = s := rfl

@[simp] theorem play_cons (e : Event) (l : List Event) (s : State) : play (e :: l) s = play l (eventEffect e s) := rfl

theorem play_append (l l' : List Event) (s : State) : play (l ++ l') s = play l' (play l s) := List.foldl_append

/-- The run of a script from a state that the model runs from. -/
theorem runScript_eq {s : State} (hr : s.refusal = none) (l : List Event) : runScript l s = .next { play l s with agenda := [] } := by
  induction l generalizing s with
  | nil => rfl
  | cons e l ih =>
    have first : step { s with agenda := e :: l } = .next { eventEffect e s with agenda := l } := by
      rw [step_event (e := e) (s := { s with agenda := e :: l }) hr rfl, ← eventEffect_agenda]
      rfl
    exact (run_succ first l.length).trans (ih (eventEffect_refusal hr e))

/-! ### A TICK and an index edge -/

/-- The tick `n`, and the queue of `q`. -/
def State.withClock (s : State) (n : Nat) (q : State) : State :=
  { s with tick := n, qbuf := q.qbuf, qWr := q.qWr, qPend := q.qPend, qOvf := q.qOvf }

theorem tickStep_eq_withClock (s : State) : s.tickStep = s.withClock ((s.tick + 1) % 2 ^ s.params.tickW) s.tickStep := by
  cases ho : s.qOvf with
  | false => rw [tickStep_quiet ho]; rfl
  | true => rw [tickStep_overflow ho]; rfl

theorem pushAll_eq_withClock (l : List Byte) (s : State) : pushAll l s = s.withClock s.tick (pushAll l s) := by
  induction l generalizing s with
  | nil => rfl
  | cons b l ih => exact (ih (s.push b)).trans rfl

theorem pushAll_withTick (l : List Byte) (n : Nat) (s : State) : pushAll l { s with tick := n } = { pushAll l s with tick := n } := by
  induction l generalizing s with
  | nil => rfl
  | cons b l ih => exact ih (s.push b)

/-- The capture reaction neither reads nor writes the tick; it puts the same bytes into whatever queue there is. -/
theorem capture_withClock (s : State) : ∃ l, ∀ n q, (s.withClock n q).capture = pushAll l (s.capture.withClock n q) := by
  rcases capture_cases s with ⟨hl, hm, e⟩ | ⟨hl, hm, e⟩ | ⟨hl, hx, e⟩ | ⟨hl, hx, e⟩
  · exact ⟨[Response.indexOn.code], fun n q => by rw [e, capture_firstOn (s := s.withClock n q) hl hm]; rfl⟩
  · exact ⟨[Response.indexOn.code], fun n q => by rw [e, capture_laterOn (s := s.withClock n q) hl hm]; rfl⟩
  · exact ⟨[Response.indexOff.code], fun n q => by rw [e, capture_off (s := s.withClock n q) hl hx]; rfl⟩
  · exact ⟨[Response.indexOff.code, Response.done.code], fun n q => by rw [e, capture_lastOff (s := s.withClock n q) hl hx]; rfl⟩

theorem idxFall_withClock (s : State) : ∃ l, ∀ n q, (s.withClock n q).idxFall = pushAll l (s.idxFall.withClock n q) := by
  rcases idxFall_cases s with ⟨low, e⟩ | ⟨high, disabled, e⟩ | ⟨high, enabled, e⟩ <;> rw [e]
  · exact ⟨[], fun n q => by rw [idxFall_of_low (s := s.withClock n q) low]; rfl⟩
  · exact ⟨[], fun n q => by rw [idxFall_of_not_qualifies (s := s.withClock n q) high disabled]; rfl⟩
  · obtain ⟨l, hl⟩ := capture_withClock { s with idxLine := false }
    exact ⟨l, fun n q => by rw [idxFall_of_qualifies (s := s.withClock n q) high enabled]; exact hl n q⟩

theorem idxRise_withClock (s : State) : ∃ l, ∀ n q, (s.withClock n q).idxRise = pushAll l (s.idxRise.withClock n q) := by
  rcases idxRise_cases s with ⟨high, e⟩ | ⟨low, unqualified, e⟩ | ⟨low, enabled, both, e⟩ <;> rw [e]
  · exact ⟨[], fun n q => by rw [idxRise_of_high (s := s.withClock n q) high]; rfl⟩
  · exact ⟨[], fun n q => by
      rw [idxRise_of_not_qualifies (s := s.withClock n q) low (State.riseQualifies_eq_false unqualified)]; rfl⟩
  · obtain ⟨l, hl⟩ := capture_withClock { s with idxLine := true }
    exact ⟨l, fun n q => by rw [idxRise_of_qualifies (s := s.withClock n q) low enabled both]; exact hl n q⟩

theorem edge_withClock {e : Event} (he : e = .idxFall ∨ e = .idxRise) (s : State) :
    ∃ l, ∀ n q, eventEffect e (s.withClock n q) = pushAll l ((eventEffect e s).withClock n q) := by
  rcases he with rfl | rfl
  · exact idxFall_withClock s
  · exact idxRise_withClock s

/-- An edge into a queue with room for two bytes causes no overflow. -/
theorem edge_no_overflow {e : Event} {s : State} (hr : s.refusal = none) (quiet : s.qOvf = false) (room : s.qPend.toNat < 127) :
    (eventEffect e s).qOvf = false := by
  by_contra overflow
  obtain ⟨-, full⟩ := (stepCase_eventEffect hr e).queueMove.overflow_set quiet (Bool.not_eq_false _ ▸ overflow)
  rcases full with full | ⟨full, -⟩ <;> exact absurd room (by simp only at full; omega)

theorem edge_tick_eq {e : Event} (he : e = .idxFall ∨ e = .idxRise) {s : State} (hr : s.refusal = none) :
    (eventEffect e s).tick = s.tick :=
  (stepCase_eventEffect hr e).tick_eq (by rcases he with rfl | rfl <;> exact nofun)

/-- Settles O45: both orders do the edge's visible change and the tick; they differ in which bytes come first, and agree when TICK has no byte
to put. -/
theorem tickAndEdgeOrdersDifferOnlyInQueue : Obligations.TickAndEdgeOrdersDifferOnlyInQueue := by
  intro s e he hr
  obtain ⟨l, edge⟩ := edge_withClock he s
  have tickEdge : eventEffect e s.tickStep = pushAll l ((eventEffect e s).withClock ((s.tick + 1) % 2 ^ s.params.tickW) s.tickStep) :=
    (congrArg (eventEffect e) (tickStep_eq_withClock s)).trans (edge _ _)
  have clock : ((eventEffect e s).tick + 1) % 2 ^ (eventEffect e s).params.tickW = (s.tick + 1) % 2 ^ s.params.tickW := by
    rw [edge_tick_eq he hr, show (eventEffect e s).params = s.params from (stepCase_eventEffect hr e).params]
  refine ⟨{ eventEffect e s.tickStep with agenda := [] }, { (eventEffect e s).tickStep with agenda := [] }, runScript_eq hr _,
    runScript_eq hr _, ?_, fun quiet room => ?_⟩
  · rw [tickEdge, pushAll_eq_withClock, tickStep_eq_withClock (eventEffect e s), clock]
    rfl
  · rw [tickEdge, tickStep_quiet quiet, tickStep_quiet (edge_no_overflow hr quiet room), clock]
    have own : eventEffect e s = pushAll l ((eventEffect e s).withClock s.tick s) := edge s.tick s
    have later := pushAll_withTick l ((s.tick + 1) % 2 ^ s.params.tickW) ((eventEffect e s).withClock s.tick s)
    rw [← own] at later
    exact congrArg (fun u : State => { u with agenda := [] }) later

end Sys2Proof.Machine
end

section
/-! PROOFS. Operations serviced every tick: the wait for a wake (R92, R106, R124), and the spin-up and the read timeout (R127, R128, R166). -/

namespace Sys2Proof.Machine

/-! ### One tick serviced -/

/-- MAIN at DRAIN with nothing to send, no packet and no overflow: a TICK and an ITER only poll. -/
structure State.Calm (s : State) : Prop where
  phase : s.mlPhase = .drain
  noPacket : s.rxFifo = []
  few : s.qPend.toNat ≤ 64
  noOverflow : s.qOvf = false

/-- `s` with tick `n`. -/
def State.atTick (s : State) (n : Nat) : State := { s with tick := n }

theorem State.Calm.atTick {s : State} (h : s.Calm) (n : Nat) : (s.atTick n).Calm := ⟨h.phase, h.noPacket, h.few, h.noOverflow⟩

theorem withPhase_self {s : State} {p : MlPhase} (h : s.mlPhase = p) : s.withPhase p = s := by subst h; rfl

/-- One tick and one turn of the main loop (R92). -/
def period : List Event := .tick :: iteration

/-- The turn drains nothing, takes no packet, and polls. -/
theorem play_period {s : State} (h : s.Calm) :
    play period s = ((s.atTick ((s.tick + 1) % 2 ^ s.params.tickW)).withPhase .poll).pollPhase := by
  have ticked : eventEffect .tick s = s.atTick ((s.tick + 1) % 2 ^ s.params.tickW) := tickStep_quiet h.noOverflow
  simp only [period, iteration, play_cons, play_nil, ticked]
  generalize hu : s.atTick ((s.tick + 1) % 2 ^ s.params.tickW) = u
  have calm : u.Calm := hu ▸ h.atTick _
  have drained : eventEffect .main u = u.withPhase .rx := by
    simp only [eventEffect, mainEffect, calm.phase]
    exact drainPhase_of_le calm.few
  have received : eventEffect .main (u.withPhase .rx) = u.withPhase .poll := rxEffect_nil (s := u.withPhase .rx) calm.noPacket
  rw [drained, received]
  rfl

theorem wait_succ (n : Nat) : wait (n + 1) = wait n ++ period := by
  simp [wait, List.replicate_succ', period]

theorem wait_add (m n : Nat) : wait (m + n) = wait m ++ wait n := by
  rw [wait, ← List.replicate_append_replicate, List.flatten_append]
  rfl

/-! ### The wait for a wake -/

/-- A wake is armed `d` ticks ahead, a legal delay, in a block that only waits for it. -/
structure State.Waits (s : State) (d : Nat) : Prop where
  calm : s.Calm
  range : s.tick < 2 ^ s.params.tickW
  valid : Params.valid s.params = true
  busy : s.opState ≠ .idle
  armed : s.armed = true
  sched : s.sched = (s.tick + d) % 2 ^ s.params.tickW
  positive : 1 ≤ d
  legal : d ≤ 2 ^ s.params.tickW - s.params.lateBound

/-- Before the delay has passed only the tick moves. -/
theorem State.Waits.play_early {s : State} {d j : Nat} (h : s.Waits d) (hj : j < d) :
    play (wait j) s = s.atTick ((s.tick + j) % 2 ^ s.params.tickW) := by
  induction j with
  | zero => rw [Nat.add_zero, Nat.mod_eq_of_lt h.range]; rfl
  | succ j ih =>
    rw [wait_succ, play_append, ih (by omega), play_period (h.calm.atTick _)]
    have later : ((s.tick + j) % 2 ^ s.params.tickW + 1) % 2 ^ s.params.tickW = (s.tick + (j + 1)) % 2 ^ s.params.tickW := by
      rw [Nat.mod_add_mod, Nat.add_assoc]
    simp only [State.atTick, later]
    have early : ((s.atTick ((s.tick + (j + 1)) % 2 ^ s.params.tickW)).withPhase .poll).wakes = false := by
      rw [Bool.eq_false_iff, Ne, wakes_iff]
      rintro ⟨-, -, due⟩
      exact absurd due (Bool.eq_false_iff.1 (due_before hj h.legal rfl h.sched))
    exact (congrArg (State.withPhase .drain) (pollOnce_of_not_wakes early)).trans
      (withPhase_self (s := s.atTick ((s.tick + (j + 1)) % 2 ^ s.params.tickW)) h.calm.phase)

/-- At the delay the wake is serviced. -/
theorem State.Waits.play_wake {s : State} {d : Nat} (h : s.Waits d) :
    play (wait d) s = ((s.atTick s.sched).withPhase .poll).wake.withPhase .drain := by
  obtain ⟨j, rfl⟩ : ∃ j, d = j + 1 := ⟨d - 1, by have := h.positive; omega⟩
  rw [wait_succ, play_append, h.play_early (Nat.lt_succ_self j), play_period (h.calm.atTick _)]
  have reached : ((s.tick + j) % 2 ^ s.params.tickW + 1) % 2 ^ s.params.tickW = s.sched := by
    rw [Nat.mod_add_mod, Nat.add_assoc, h.sched]
  simp only [State.atTick, reached]
  have due : ((s.atTick s.sched).withPhase .poll).wakes = true :=
    (wakes_iff _).2 ⟨h.busy, h.armed, due_at (s := (s.atTick s.sched).withPhase .poll) h.valid rfl⟩
  exact congrArg (State.withPhase .drain) (pollOnce_of_wakes due)

theorem legal_delay {p : Params} (h : Params.valid p = true) {d : Nat} (hd : d ∈ p.delays) : 1 ≤ d ∧ d ≤ 2 ^ p.tickW - p.lateBound :=
  ((Params.valid_iff p).1 h).2.2.2 d hd

/-! ### Spin-up and the read timeout -/

/-- The response of a wake, pushed before `go_idle`, is pushed after it: the phase is DRAIN before and after. -/
theorem pushedOnto_goIdle_drain (r : Response) {s : State} (h : s.mlPhase = .drain) :
    PushedOnto r.code s.goIdle ((State.respond r s).goIdle.withPhase .drain) := by
  have pushed := pushedOnto_goIdle_withPhase r .drain s
  rwa [withPhase_self (s := s.goIdle) h] at pushed

/-- Before its delay has passed an operation shows nothing but the tick. -/
theorem State.Waits.runScript_early {s : State} {d j : Nat} (h : s.Waits d) (hr : s.refusal = none) (hj : j < d) :
    runScript (wait j) s = .next { s with agenda := [], tick := (s.tick + j) % 2 ^ s.params.tickW } := by
  rw [runScript_eq hr, h.play_early hj]
  rfl

/-- Settles O51: MOTOR on and READ_MULTI each leave a block that waits for their wake, whose transition is one response and `go_idle`. -/
theorem spinUpAndTimeoutLastTheirDelay : Obligations.SpinUpAndTimeoutLastTheirDelay := by
  intro s hr phase noPacket few noOverflow range
  have valid := ((refusal_none_iff s).1 hr).1
  refine ⟨fun v hv => ?spinUp, fun n => ?timeout⟩
  case spinUp =>
    obtain ⟨positive, legal⟩ := legal_delay valid (d := s.params.spinupDelay) (by simp [Params.delays])
    let u := State.arm .spinningUp s.params.spinupDelay (s.cancel.setMotor true)
    have runs : u.refusal = none := (refusal_none_iff u).2 ⟨valid, nofun⟩
    have waits : u.Waits s.params.spinupDelay := ⟨⟨phase, noPacket, few, noOverflow⟩, range, valid, nofun, rfl, rfl, positive, legal⟩
    refine ⟨u, by rw [exec_eq, effect_motor_on hv], fun j hj => waits.runScript_early runs hj, _, runScript_eq runs _, ?_⟩
    rw [waits.play_wake, wake_spinningUp rfl]
    exact pushedOnto_goIdle_drain .done (s := { u with agenda := [], tick := u.sched }) phase
  case timeout =>
    obtain ⟨positive, legal⟩ := legal_delay valid (d := s.params.readTimeout) (by simp [Params.delays])
    let u := s.startRead n
    have runs : u.refusal = none := (refusal_none_iff u).2 ⟨valid, nofun⟩
    have waits : u.Waits s.params.readTimeout := ⟨⟨phase, noPacket, few, noOverflow⟩, range, valid, nofun, rfl, rfl, positive, legal⟩
    refine ⟨u, exec_readMulti n s, fun j hj => waits.runScript_early runs hj, _, runScript_eq runs _, ?_⟩
    rw [waits.play_wake, wake_reading rfl]
    exact pushedOnto_goIdle_drain .indexTimeout (s := { u with agenda := [], tick := u.sched, idxEn := false }) phase

end Sys2Proof.Machine
end

section
/-! PROOFS. A read session counted in index pulses (R165 to R168). -/

namespace Sys2Proof.Machine

/-! ### One index pulse of a session -/

theorem pushAll_append (l l' : List Byte) (s : State) : pushAll (l ++ l') s = pushAll l' (pushAll l s) := List.foldl_append

/-- A session with line high, latch OFF and count `c`: before its first on-edge, or with the timeout disarmed. -/
structure State.Ready (s : State) (c : Nat) : Prop where
  line : s.idxLine = true
  enabled : s.idxEn = true
  latch : s.idxLatch = false
  disarmed : s.idxMode = .falling ∨ s.armed = false
  count : s.revCount = c

/-- The registers of a session after its first on-edge, with count `c`. -/
def State.counted (s : State) (c : Nat) : State := { s with armed := false, idxMode := .both, revCount := c }

/-- After the fall of the pulse that makes the count `c`. -/
def State.latchedOn (s : State) (c : Nat) : State :=
  State.push Response.indexOn.code { s.counted c with idxLine := false, idxLatch := true }

theorem State.Ready.of_counted {s : State} {c : Nat} (h : s.Ready c) (l : List Byte) (c' : Nat) : ((pushAll l s).counted c').Ready c' := by
  rw [pushAll_eq_withClock]
  exact ⟨h.line, h.enabled, h.latch, .inr rfl, rfl⟩

theorem indexPulses_succ (k : Nat) : indexPulses (k + 1) = indexPulses k ++ [.idxFall, .idxRise] := by
  simp [indexPulses, List.replicate_succ']

/-- The fall of a pulse turns the latch on, counts, and leaves the timeout disarmed (R165, R166). -/
theorem State.Ready.fall {s : State} {c : Nat} (h : s.Ready c) (wide : c + 1 < 2 ^ s.params.revW) :
    eventEffect .idxFall s = s.latchedOn (c + 1) := by
  have unarmed : (if s.idxMode = .falling then false else s.armed) = false := by
    rcases h.disarmed with falling | off
    · rw [if_pos falling]
    · rw [off, ite_self]
  rw [eventEffect, idxFall_of_qualifies h.line h.enabled, capture_on (s := { s with idxLine := false }) h.latch]
  simp only [unarmed, h.count, Nat.mod_eq_of_lt wide]
  rfl

/-- The rise of a pulse while the count does not exceed the target. -/
theorem State.Ready.pulse {s : State} {c : Nat} (h : s.Ready c) (wide : c + 1 < 2 ^ s.params.revW) (more : c + 1 ≤ s.revTarget.toNat) :
    play [.idxFall, .idxRise] s = pushAll [0xC3, 0xC4] (s.counted (c + 1)) := by
  rw [play_cons, h.fall wide, play_cons, play_nil, eventEffect,
    idxRise_of_qualifies (s := s.latchedOn (c + 1)) rfl h.enabled rfl,
    capture_off (s := { s.latchedOn (c + 1) with idxLine := true }) rfl more]
  have restored : ({ s.counted (c + 1) with idxLine := true, idxLatch := false } : State) = s.counted (c + 1) := by
    simp only [State.counted, h.line, h.latch]
  exact congrArg (pushAll [0xC3, 0xC4]) restored

/-- The rise of the pulse whose count exceeds the target ends the session; it leaves `sched` (log 6). -/
theorem State.Ready.lastPulse {s : State} {c : Nat} (h : s.Ready c) (wide : c + 1 < 2 ^ s.params.revW) (last : s.revTarget.toNat < c + 1) :
    play [.idxFall, .idxRise] s = pushAll [0xC3, 0xC4, 0xC1] { s.counted (c + 1) with opState := .idle, idxEn := false } := by
  rw [play_cons, h.fall wide, play_cons, play_nil, eventEffect,
    idxRise_of_qualifies (s := s.latchedOn (c + 1)) rfl h.enabled rfl,
    capture_lastOff (s := { s.latchedOn (c + 1) with idxLine := true }) rfl last]
  have restored : ({ s.counted (c + 1) with idxLine := true, idxLatch := false, opState := .idle, idxEn := false } : State) =
      { s.counted (c + 1) with opState := .idle, idxEn := false } := by
    simp only [State.counted, h.line, h.latch]
  exact congrArg (pushAll [0xC3, 0xC4, 0xC1]) restored

/-! ### The pulses of a session -/

/-- What `k` whole revolutions push. -/
def revolutions (k : Nat) : List Byte := (List.replicate k [0xC3, 0xC4]).flatten

theorem revolutions_succ (k : Nat) : revolutions (k + 1) = revolutions k ++ [0xC3, 0xC4] := by
  simp [revolutions, List.replicate_succ']

theorem pushAll_counted (l : List Byte) (c : Nat) (s : State) : pushAll l (s.counted c) = (pushAll l s).counted c := by
  induction l generalizing s with
  | nil => rfl
  | cons b l ih => exact ih (s.push b)

/-- A state that is `s` but for the queue and the registers of `counted` has its target and parameters. -/
theorem target_of_counted_eq {s u : State} {l : List Byte} {c : Nat} (same : u.counted c = (pushAll l s).counted c) :
    u.revTarget = s.revTarget ∧ u.params = s.params := by
  rw [pushAll_eq_withClock] at same
  have target := congrArg State.revTarget same
  have params := congrArg State.params same
  exact ⟨target, params⟩

/-- One more pulse of a session that goes on, from a state that is `s` but for the queue and the registers of `counted`. -/
theorem State.Ready.nextPulse {s u : State} {l : List Byte} {k : Nat} (ready : u.Ready k)
    (same : ∀ c, u.counted c = (pushAll l s).counted c) (wide : s.revTarget.toNat + 1 < 2 ^ s.params.revW)
    (more : k + 1 ≤ s.revTarget.toNat) : play [.idxFall, .idxRise] u = (pushAll (l ++ [0xC3, 0xC4]) s).counted (k + 1) := by
  obtain ⟨target, params⟩ := target_of_counted_eq (same 0)
  rw [ready.pulse (by rw [params]; omega) (by rw [target]; exact more), same, pushAll_append, pushAll_counted]

section Pulses
variable {s : State} (h : s.Ready 0) (wide : s.revTarget.toNat + 1 < 2 ^ s.params.revW)
include h wide

/-- After `k` pulses, up to the target, the session goes on: its count is `k`, and but for the registers of `counted` only the queue has
changed. -/
theorem State.Ready.pulses {k : Nat} (hk : k ≤ s.revTarget.toNat) :
    (play (indexPulses k) s).Ready k ∧ ∀ c, (play (indexPulses k) s).counted c = (pushAll (revolutions k) s).counted c := by
  induction k with
  | zero => exact ⟨h, fun _ => rfl⟩
  | succ k ih =>
    obtain ⟨ready, same⟩ := ih (by omega)
    rw [indexPulses_succ, play_append, revolutions_succ, ready.nextPulse same wide hk]
    exact ⟨h.of_counted _ _, fun _ => rfl⟩

/-- From the first pulse on the registers of `counted` have their values. -/
theorem State.Ready.play_pulses {k : Nat} (first : 1 ≤ k) (hk : k ≤ s.revTarget.toNat) :
    play (indexPulses k) s = (pushAll (revolutions k) s).counted k := by
  obtain ⟨j, rfl⟩ : ∃ j, k = j + 1 := ⟨k - 1, by omega⟩
  obtain ⟨ready, same⟩ := h.pulses wide (k := j) (by omega)
  rw [indexPulses_succ, play_append, revolutions_succ, ready.nextPulse same wide hk]

/-- The pulse after the one that reaches the target ends the session. -/
theorem State.Ready.play_lastPulse : play (indexPulses (s.revTarget.toNat + 1)) s =
    { (pushAll (revolutions (s.revTarget.toNat + 1) ++ [0xC1]) s).counted (s.revTarget.toNat + 1) with
      opState := .idle, idxEn := false } := by
  obtain ⟨ready, same⟩ := h.pulses wide (le_refl _)
  obtain ⟨target, params⟩ := target_of_counted_eq (same 0)
  rw [indexPulses_succ, play_append, ready.lastPulse (by rw [params]; exact wide) (by rw [target]; exact Nat.lt_succ_self _), same,
    revolutions_succ, List.append_assoc, pushAll_append]
  rfl

end Pulses

/-- Settles O52: READ_MULTI leaves a session before its first on-edge; `n` pulses count up to the target, and the next one exceeds it. -/
theorem readSessionLastsTargetPlusOne : Obligations.ReadSessionLastsTargetPlusOne := by
  intro n s hr line wide
  let u := s.startRead n
  have runs : u.refusal = none := (refusal_none_iff u).2 ⟨((refusal_none_iff s).1 hr).1, nofun⟩
  have start : u.Ready 0 := ⟨line, rfl, rfl, .inl rfl, rfl⟩
  refine ⟨u, exec_readMulti n s, fun k first hk => ?goesOn, ?ended⟩
  case goesOn =>
    rw [runScript_eq runs, start.play_pulses wide first hk]
    rfl
  case ended =>
    have last := start.play_lastPulse wide
    rw [runScript_eq runs]
    exact congrArg (fun v : State => Host.Outcome.next { v with agenda := [] }) last

end Sys2Proof.Machine
end

section
/-! PROOFS. A seek serviced on time (R125, R126, R130, R132, R138, R273). -/

namespace Sys2Proof.Machine

/-! ### The distance -/

/-- From cylinder `c` the next pulse in direction `d` arrives at `n`, or `r` more are needed after it. -/
def Reaches (d : Dir) (n : Byte) : Nat → Byte → Prop
  | 0, c => cylinderAfterPulse d c = n
  | r + 1, c => cylinderAfterPulse d c ≠ n ∧ Reaches d n r (cylinderAfterPulse d c)

theorem reaches_inward {n : Byte} {r : Nat} {c : Byte} (h : c.toNat + (r + 1) = n.toNat) : Reaches .inward n r c := by
  induction r generalizing c with
  | zero => show c + 1 = n; bv_omega
  | succ r ih =>
    have hn := n.isLt
    have moved : (c + 1).toNat = c.toNat + 1 := by bv_omega
    exact ⟨fun here : c + 1 = n => by rw [here] at moved; omega, ih (c := c + 1) (by omega)⟩

theorem reaches_outward {n : Byte} {r : Nat} {c : Byte} (h : n.toNat + (r + 1) = c.toNat) : Reaches .outward n r c := by
  induction r generalizing c with
  | zero => show c - 1 = n; bv_omega
  | succ r ih =>
    have moved : (c - 1).toNat = c.toNat - 1 := by bv_omega
    exact ⟨fun here : c - 1 = n => by rw [here] at moved; omega, ih (c := c - 1) (by omega)⟩

/-- To 0 from a wrong zero it is all the way round (R138). -/
theorem reaches_around : Reaches .outward 0 255 0 := ⟨by decide, reaches_outward (c := cylinderAfterPulse .outward 0) (by decide)⟩

theorem reaches_pulsesNeeded {n c : Byte} (h : n ≠ 0 → n ≠ c) :
    1 ≤ pulsesNeeded n c ∧ Reaches (if c.toNat < n.toNat then .inward else .outward) n (pulsesNeeded n c - 1) c := by
  unfold pulsesNeeded
  rcases Nat.lt_trichotomy c.toNat n.toNat with below | here | above
  · rw [if_pos below, if_pos below]
    exact ⟨by omega, reaches_inward (by omega)⟩
  · obtain rfl : c = n := BitVec.eq_of_toNat_eq here
    obtain rfl : c = 0 := by_contra fun h0 => h h0 rfl
    exact ⟨by decide, reaches_around⟩
  · rw [if_neg (by omega), if_pos above, if_neg (by omega)]
    exact ⟨by omega, reaches_outward (by omega)⟩

/-! ### One pulse on time -/

/-- A seek that waits for its next pulse, `d` ticks ahead, and that the track-0 sensor does not end. -/
structure State.Seeks (s : State) (d : Nat) : Prop where
  waits : s.Waits d
  low : s.opState = .stepPulseLow
  lineLow : s.stepN = false
  away : ¬(s.tgtCyl = 0 ∧ s.trk0 = true)

/-- The pulse completed at the tick of its wake. -/
def State.pulsed (s : State) : State := { s with
  tick := s.sched, stepN := true, curCyl := cylinderAfterPulse s.dir s.curCyl, pulses := s.pulses ++ [{ dir := s.dir, tick := s.sched }] }

theorem State.Seeks.play_arrived {s : State} {d : Nat} (h : s.Seeks d) (here : cylinderAfterPulse s.dir s.curCyl = s.tgtCyl) :
    play (wait d) s = State.arm .stepSettle s.params.settleDelay s.pulsed := by
  rw [h.waits.play_wake, wake_stepPulseLow (s := (s.atTick s.sched).withPhase .poll) h.low,
    wakeStepPulseLow_arrived (s := (s.atTick s.sched).withPhase .poll) h.away here]
  exact withPhase_self (s := State.arm .stepSettle s.params.settleDelay s.pulsed) h.waits.calm.phase

theorem State.Seeks.play_onward {s : State} {d : Nat} (h : s.Seeks d) (there : cylinderAfterPulse s.dir s.curCyl ≠ s.tgtCyl) :
    play (wait d) s = State.startPulse s.params.stepPeriod s.pulsed := by
  rw [h.waits.play_wake, wake_stepPulseLow (s := (s.atTick s.sched).withPhase .poll) h.low,
    wakeStepPulseLow_onward (s := (s.atTick s.sched).withPhase .poll) h.away there]
  exact withPhase_self (s := State.startPulse s.params.stepPeriod s.pulsed) h.waits.calm.phase

/-- The wake that a pulse arms is waited for in turn. -/
theorem State.Waits.rearm {s : State} {d d' : Nat} (h : s.Waits d) {o : OpState} (busy : o ≠ .idle) (hd : d' ∈ s.params.delays)
    (line : Bool) : (State.arm o d' { s.pulsed with stepN := line }).Waits d' := by
  obtain ⟨positive, legal⟩ := legal_delay h.valid hd
  have range : s.sched < 2 ^ s.params.tickW := h.sched ▸ Nat.mod_lt _ (Nat.two_pow_pos _)
  exact ⟨⟨h.calm.phase, h.calm.noPacket, h.calm.few, h.calm.noOverflow⟩, range, h.valid, busy, rfl, rfl, positive, legal⟩

/-- The settle delay, then DONE with the direction restored (R126). -/
theorem play_settle {s : State} {d : Nat} (h : s.Waits d) (settling : s.opState = .stepSettle) :
    play (wait d) s = State.push Response.done.code { s with tick := s.sched, dir := .outward, opState := .idle, armed := false } := by
  rw [h.play_wake, wake_stepSettle (s := (s.atTick s.sched).withPhase .poll) settling]
  exact withPhase_self (s := State.push Response.done.code { s with tick := s.sched, dir := .outward, opState := .idle, armed := false })
    h.calm.phase

/-! ### The whole seek -/

/-- `k` pulses, one every `p` ticks from `t` on. -/
def pulsesFrom (d : Dir) (w t p k : Nat) : List Pulse := (List.range k).map fun i => { dir := d, tick := (t + i * p) % 2 ^ w }

theorem pulsesFrom_succ (d : Dir) (w t p k : Nat) : pulsesFrom d w t p (k + 1) = { dir := d, tick := t % 2 ^ w } :: pulsesFrom d w (t + p) p k := by
  simp [pulsesFrom, List.range_succ_eq_map, Nat.succ_mul, Nat.add_assoc, Nat.add_comm p]

theorem pulsesFrom_mod (d : Dir) (w t p p' k : Nat) : pulsesFrom d w (t % 2 ^ w + p') p k = pulsesFrom d w (t + p') p k := by
  simp [pulsesFrom, Nat.add_assoc]

/-- The end of a seek at tick `n`, after the pulses `ps`. -/
def State.seekEnd (s : State) (n : Nat) (ps : List Pulse) : State := State.push Response.done.code { s with
  tick := n, sched := n, armed := false, opState := .idle, curCyl := s.tgtCyl, dir := .outward, stepN := true, pulses := s.pulses ++ ps }

/-- The first pulse of a seek, then the rest of it. -/
theorem seekEnd_pulsed (s : State) (n : Nat) (ps : List Pulse) :
    (State.startPulse s.params.stepPeriod s.pulsed).seekEnd n ps = s.seekEnd n ({ dir := s.dir, tick := s.sched } :: ps) := by
  simp only [State.seekEnd, State.startPulse, State.arm, State.pulsed, List.append_assoc, List.singleton_append]

theorem State.Seeks.play_seek {r : Nat} {s : State} {d : Nat} (h : s.Seeks d) (reach : Reaches s.dir s.tgtCyl r s.curCyl) :
    play (wait (d + r * s.params.stepPeriod + s.params.settleDelay)) s =
      s.seekEnd ((s.tick + (d + r * s.params.stepPeriod + s.params.settleDelay)) % 2 ^ s.params.tickW)
        (pulsesFrom s.dir s.params.tickW (s.tick + d) s.params.stepPeriod (r + 1)) := by
  have first : s.sched = (s.tick + d) % 2 ^ s.params.tickW := h.waits.sched
  induction r generalizing s d with
  | zero =>
    have waits : (State.arm .stepSettle s.params.settleDelay s.pulsed).Waits s.params.settleDelay :=
      h.waits.rearm (o := .stepSettle) (d' := s.params.settleDelay) nofun (by simp [Params.delays]) true
    have arrived : cylinderAfterPulse s.dir s.curCyl = s.tgtCyl := reach
    rw [Nat.zero_mul, Nat.add_zero, wait_add, play_append, h.play_arrived arrived, play_settle waits rfl, ← Nat.add_assoc,
      ← Nat.mod_add_mod, ← first, pulsesFrom_succ, ← first]
    simp only [State.seekEnd, State.arm, State.pulsed, arrived]
    rfl
  | succ r ih =>
    obtain ⟨there, reach⟩ := reach
    have waits : (State.startPulse s.params.stepPeriod s.pulsed).Waits s.params.stepPeriod :=
      h.waits.rearm (o := .stepPulseLow) (d' := s.params.stepPeriod) nofun (by simp [Params.delays]) false
    have rest := ih (s := State.startPulse s.params.stepPeriod s.pulsed) ⟨waits, rfl, rfl, h.away⟩ reach rfl
    have split : d + (r + 1) * s.params.stepPeriod + s.params.settleDelay =
        d + (s.params.stepPeriod + r * s.params.stepPeriod + s.params.settleDelay) := by ring
    rw [split, wait_add, play_append, h.play_onward there, pulsesFrom_succ, ← first, ← Nat.add_assoc s.tick, ← Nat.mod_add_mod, ← first,
      ← pulsesFrom_mod, ← first, ← seekEnd_pulsed]
    exact rest

/-- CYLINDER to a target that takes pulses: the start of the seek (R122). -/
theorem exec_seek {n : Byte} {s : State} (legal : n.toNat ≤ 79) (sensor : n = 0 → s.trk0 = false) (elsewhere : n ≠ 0 → n ≠ s.curCyl) :
    exec (.cylinder n) s = .next (State.startPulse s.params.stepFirstDelay
      { s.cancel with tgtCyl := n, dir := if s.curCyl.toNat < n.toNat then .inward else .outward }) := by
  rw [exec_cylinder_of_le legal]
  by_cases h0 : n = 0
  · subst h0
    have notBelow : ¬s.curCyl.toNat < (0 : Byte).toNat := Nat.not_lt_zero _
    rw [seek_zero_away (sensor rfl), if_neg notBelow]
  · rw [seek_away h0 (elsewhere h0)]

/-- Settles O49: the seek starts with `pulsesNeeded` pulses to go, the first after STEP_FIRST_DELAY. -/
theorem seekOnTimeTakesTheDistance : Obligations.SeekOnTimeTakesTheDistance := by
  intro n s legal sensor elsewhere hr phase noPacket few noOverflow range k d ticks
  obtain ⟨some_pulse, reach⟩ := reaches_pulsesNeeded (n := n) (c := s.curCyl) elsewhere
  have valid := ((refusal_none_iff s).1 hr).1
  obtain ⟨positive, legalDelay⟩ := legal_delay valid (d := s.params.stepFirstDelay) (by simp [Params.delays])
  let u := State.startPulse s.params.stepFirstDelay { s.cancel with tgtCyl := n, dir := d }
  have runs : u.refusal = none := (refusal_none_iff u).2 ⟨valid, nofun⟩
  have seeks : u.Seeks s.params.stepFirstDelay :=
    ⟨⟨⟨phase, noPacket, few, noOverflow⟩, range, valid, nofun, rfl, rfl, positive, legalDelay⟩, rfl, rfl,
      fun both => Bool.eq_false_iff.1 (sensor both.1) both.2⟩
  have played : play (wait ticks) u = u.seekEnd ((s.tick + ticks) % 2 ^ s.params.tickW)
      (pulsesFrom d s.params.tickW (s.tick + s.params.stepFirstDelay) s.params.stepPeriod k) := by
    have rest := seeks.play_seek reach
    rwa [Nat.sub_add_cancel some_pulse] at rest
  refine ⟨u, _, exec_seek legal sensor elsewhere, runScript_eq runs _, ?_⟩
  rw [played]
  exact pushedOnto_push_code .done _

end Sys2Proof.Machine
end
